-- ==== Sys2Proof/Word.lean ====
section
/-! DEFINITION. The word types of the block: bytes, 16-bit numbers and byte sequences. -/

namespace Sys2Proof

/-- u8, an integer in 0..255 (00_scope.md R9). -/
abbrev Byte := BitVec 8

/-- u16, an integer in 0..65535 (00_scope.md R9). -/
abbrev U16 := BitVec 16

/-- A byte sequence; byte 0 is first built, first transmitted, first received (00_scope.md R10). -/
abbrev Bytes := List Byte

end Sys2Proof
end

