-- ==== Sys2Proof/Config.lean ====
section
/-! DEFINITION. The implementation parameters of 00_scope.md R7. The two that R7 marks OPEN have no
body: nothing in Lean can evaluate them (log entry 2, DESIGN CHOICE). -/

namespace Sys2Proof.Config

/-- `CRC_POLY` (R7). -/
def crcPoly : U16 := 0x8005#16

/-- `CRC_INIT` (R7), the value every checksum computation starts from (R21, R102). -/
def crcInit : U16 := 0x0000#16

/-- `CMD_HEADER` (R7, R132), OPEN: the packet-type header byte. -/
opaque cmdHeader : Byte

/-- `CMD_OVERHEAD` (R7): a command frame's length is this plus its payload's. -/
def cmdOverhead : Nat := 7

/-- `RESP_OVERHEAD` (R7): a response's length is this plus its payload's. -/
def respOverhead : Nat := 3

/-- `WAKE_PULSE` (R7, R86). -/
def wakePulse : Bytes := [0x00#8]

/-- `WAKE_ACK_LEN` (R7, R86). -/
def wakeAckLen : Nat := 4

/-- `WAKE_ACK` (R7, R193), OPEN: the four bytes of the wake acknowledgment. -/
opaque wakeAck : Vector Byte 4

/-- `T_WAKE_SETTLE` in milliseconds (R7). Timing only: no step reads it, since the model has no time
(R40, R253). -/
def wakeSettleMs : Nat := 1

/-- `MAX_DATA` (R7). -/
def maxData : Nat := 256

/-- `MAX_OUT` (R7). -/
def maxOut : Nat := 256

/-- `MAX_PAYLOAD` (R7, R131): 255 less `CMD_OVERHEAD`. -/
def maxPayload : Nat := 248

end Sys2Proof.Config
end

