-- ==== Sys2Proof/Syntax.lean ====
section
/-! DEFINITION. The requests of the block: the record the host offers (10_state.md R32) and the
instruction it stands for, one constructor per row of spec/opcode_table.json. -/

namespace Sys2Proof

/-- The request record (10_state.md R32). -/
structure Request where
  /-- `REQ`, the request descriptor (30_encoding.md R70). -/
  req   : Byte
  /-- `OPC`, the command opcode. -/
  opc   : Byte
  /-- `P1`, param1. -/
  p1    : Byte
  /-- `P2`, param2, as a number. -/
  p2    : U16
  /-- `DATA`, at most `MAX_DATA` bytes (`Request.offerable`). -/
  data  : Bytes
  /-- `NEXP`, `expected_payload_len`. -/
  nexp  : Byte
  /-- `XLENV`, the expected value of the length byte. -/
  xlenv : Byte
deriving DecidableEq, Repr

/-- The ten operations of the opcode table (30_encoding.md R76), each with the operands it uses and
no other (R32: a field an operation does not use is ignored by it). -/
inductive Instr where
  /-- REQ 0x00, `CRC` (R104). -/
  | crc (data : Bytes)
  /-- REQ 0x01, `CHK` (R106). -/
  | chk (data : Bytes)
  /-- REQ 0x02, `ENC` (R130). -/
  | enc (opc p1 : Byte) (p2 : U16) (data : Bytes)
  /-- REQ 0x03, `DEC.FIXED` (R150). -/
  | decFixed (data : Bytes) (nexp : Byte)
  /-- REQ 0x0B, `DEC.FIXED.VAL` (R150). -/
  | decFixedVal (data : Bytes) (nexp : Byte)
  /-- REQ 0x23, `DEC.FIXED.XLEN` (R150). -/
  | decFixedXlen (data : Bytes) (nexp xlenv : Byte)
  /-- REQ 0x2B, `DEC.FIXED.VAL.XLEN` (R150). -/
  | decFixedValXlen (data : Bytes) (nexp xlenv : Byte)
  /-- REQ 0x1B, `DEC.FULL` (R152). -/
  | decFull (data : Bytes)
  /-- REQ 0x3B, `DEC.FULL.XLEN` (R152). -/
  | decFullXlen (data : Bytes) (xlenv : Byte)
  /-- REQ 0x04, `WAKE` (R180). -/
  | wake
deriving DecidableEq, Repr

end Sys2Proof
end

