-- ==== Sys2Proof/WellFormed.lean ====
section
/-! DEFINITION. What a request must meet to be offered: the one bound of 10_state.md R32, on `DATA`.
Every other field admits every value of its type. -/

namespace Sys2Proof

/-- `DATA` fits the request port: 0 to `MAX_DATA` bytes (R32, 92_eei_decisions.md D5 and D30). -/
def dataFits (data : Bytes) : Bool := decide (data.length ≤ Config.maxData)

/-- The request can be offered: "`DATA` longer than `MAX_DATA` cannot be offered" (R32). -/
def Request.offerable (r : Request) : Bool := dataFits r.data

/-- The operands of an instruction can stand in a request the host can offer. -/
def Instr.wellFormed : Instr → Bool
  | .crc data                 => dataFits data
  | .chk data                 => dataFits data
  | .enc _ _ _ data           => dataFits data
  | .decFixed data _          => dataFits data
  | .decFixedVal data _       => dataFits data
  | .decFixedXlen data _ _    => dataFits data
  | .decFixedValXlen data _ _ => dataFits data
  | .decFull data             => dataFits data
  | .decFullXlen data _       => dataFits data
  | .wake                     => true

end Sys2Proof
end

