-- ==== Sys2Proof/Decode.lean ====
section
/-! DEFINITION. The request descriptor of 30_encoding.md: its fields (R70), which descriptors are legal
(R76), the decoder, total on every request and rejecting by name, and the encoder. Every rejection
is one status code at the machine, `BadRequest` (R77); the names only say which part of R76 fails. -/

namespace Sys2Proof

/-- Why a descriptor is not one of the ten legal ones (R77). -/
inductive Reject where
  /-- `REQ[7:6]` is not 0 (R75). -/
  | reservedBits
  /-- `REQ.OP` is 5, 6 or 7 (R71). -/
  | reservedOp
  /-- A flag bit is set with an operation other than DEC (R76). -/
  | unusedFlag
  /-- `FULL = 1` with `VAL = 0` (R73). -/
  | fullWithoutVal
deriving DecidableEq, Repr

/-- `REQ.OP`, bits 2:0 (R70). -/
def reqOp (b : Byte) : BitVec 3 := b.extractLsb' 0 3

/-- `REQ.VAL`, bit 3 (R70, R72). -/
def reqVal (b : Byte) : Bool := b.getLsbD 3

/-- `REQ.FULL`, bit 4 (R70, R73). -/
def reqFull (b : Byte) : Bool := b.getLsbD 4

/-- `REQ.XLEN`, bit 5 (R70, R74). -/
def reqXlen (b : Byte) : Bool := b.getLsbD 5

/-- `REQ[7:6]`, reserved (R75). -/
def reqReserved (b : Byte) : BitVec 2 := b.extractLsb' 6 2

/-- `legal(REQ)`, as R76 writes it. -/
def legal (b : Byte) : Bool :=
  reqReserved b == 0#2 &&
    (((reqOp b == 0#3 || reqOp b == 1#3 || reqOp b == 2#3 || reqOp b == 4#3) &&
        b.extractLsb' 3 3 == 0#3) ||
      (reqOp b == 3#3 && !reqFull b) ||
      (reqOp b == 3#3 && reqFull b && reqVal b))

/-- An operation that uses no flag: every flag bit must be 0 (R76). -/
def decodeUnflagged (b : Byte) (i : Instr) : Except Reject Instr :=
  if reqVal b || reqFull b || reqXlen b then .error .unusedFlag else .ok i

/-- `OP = 3`: the flags select one of the six DEC descriptors (R72 to R74, R76). -/
def decodeDec (r : Request) : Except Reject Instr :=
  match reqFull r.req, reqVal r.req, reqXlen r.req with
  | false, false, false => .ok (.decFixed r.data r.nexp)
  | false, true,  false => .ok (.decFixedVal r.data r.nexp)
  | false, false, true  => .ok (.decFixedXlen r.data r.nexp r.xlenv)
  | false, true,  true  => .ok (.decFixedValXlen r.data r.nexp r.xlenv)
  | true,  true,  false => .ok (.decFull r.data)
  | true,  true,  true  => .ok (.decFullXlen r.data r.xlenv)
  | true,  false, _     => .error .fullWithoutVal

/-- The instruction a request stands for, or why its descriptor is not legal (R71, R76, R77). The
unused fields of the record do not enter (R32). -/
def decode (r : Request) : Except Reject Instr :=
  if reqReserved r.req != 0#2 then .error .reservedBits
  else match (reqOp r.req).toNat with
    | 0 => decodeUnflagged r.req (.crc r.data)
    | 1 => decodeUnflagged r.req (.chk r.data)
    | 2 => decodeUnflagged r.req (.enc r.opc r.p1 r.p2 r.data)
    | 3 => decodeDec r
    | 4 => decodeUnflagged r.req .wake
    | _ => .error .reservedOp

/-- A descriptor byte from its fields, the reserved bits 0 (R70). -/
def reqByte (op : BitVec 3) (val full xlen : Bool) : Byte :=
  0#2 ++ BitVec.ofBool xlen ++ BitVec.ofBool full ++ BitVec.ofBool val ++ op

/-- The request with descriptor `b` and every operand field 0 or empty. -/
def Request.bare (b : Byte) : Request :=
  { req := b, opc := 0#8, p1 := 0#8, p2 := 0#16, data := [], nexp := 0#8, xlenv := 0#8 }

/-- The request that spells an instruction, its unused fields 0 or empty (R70, R71, R88). -/
def encode : Instr → Request
  | .crc data => { Request.bare (reqByte 0#3 false false false) with data := data }
  | .chk data => { Request.bare (reqByte 1#3 false false false) with data := data }
  | .enc opc p1 p2 data =>
    { Request.bare (reqByte 2#3 false false false) with opc := opc, p1 := p1, p2 := p2, data := data }
  | .decFixed data n =>
    { Request.bare (reqByte 3#3 false false false) with data := data, nexp := n }
  | .decFixedVal data n =>
    { Request.bare (reqByte 3#3 true false false) with data := data, nexp := n }
  | .decFixedXlen data n x =>
    { Request.bare (reqByte 3#3 false false true) with data := data, nexp := n, xlenv := x }
  | .decFixedValXlen data n x =>
    { Request.bare (reqByte 3#3 true false true) with data := data, nexp := n, xlenv := x }
  | .decFull data => { Request.bare (reqByte 3#3 true true false) with data := data }
  | .decFullXlen data x =>
    { Request.bare (reqByte 3#3 true true true) with data := data, xlenv := x }
  | .wake => Request.bare (reqByte 4#3 false false false)

/-- The request whose descriptor is the table's 8-bit word `w` and whose operand fields, which the
table gives no bits, are 0 or empty. -/
def tableRequest (nbits w : Nat) : Request := Request.bare (BitVec.ofNat 8 (w % 2 ^ nbits))

/-- What the decoder reads from a row's word: the descriptor is the one word of a request (R70: "No
request is longer or shorter"), so only `nbits = 8` names a row (log entry 11). -/
def decodeTableWord (nbits w : Nat) : Option Instr :=
  if nbits = 8 then (decode (tableRequest nbits w)).toOption else none

end Sys2Proof
end

