-- ==== Sys2Proof/Machine/State.lean ====
section
/-! DEFINITION. The state of the block (10_state.md R20), the inputs of its environment (R39 to R41) as
plain data, the reasons a step can stop, and the state after reset (R42). -/

namespace Sys2Proof.Machine

/-- The status codes of 60_exceptions.md R210; their numbers are in `ErrCode.code`. -/
inductive ErrCode where
  | ok
  | busTransportError
  | wakeFailed
  | unexpectedResponseLength
  | checksumMismatch
  | transportShortRead
  | badRequest
  /-- Never produced by the block (R210, D29). -/
  | unrecognizedLockState
deriving DecidableEq, Repr

/-- `WSTATE`, the position of the wake sequencer: the five legal values of R29 (log entry 1). The
number the host reads is `WState.code`. -/
inductive WState where
  /-- `W_IDLE`: no wake in progress. -/
  | idle
  /-- `W_PULSE`: about to send the wake pulse. -/
  | pulse
  /-- `W_SETTLE`: pulse sent; waiting out the settle delay. -/
  | settle
  /-- `W_RECV`: about to read the 4-byte acknowledgment. -/
  | recv
  /-- `W_CMP`: 4 bytes received; about to compare. -/
  | cmp
deriving DecidableEq, Repr

/-- The two request kinds of the bus port (R39). -/
inductive BusCall where
  /-- `BusTx(s)`: the transport's `transmit(s)` (R11). -/
  | transmit (bytes : Bytes)
  /-- `BusRx(n)`: the transport's `receive(buffer of n bytes)` (R11). -/
  | receive (count : Nat)
deriving DecidableEq, Repr

/-- The transport's answer to a transmit (R39). -/
inductive TxResult where
  | ok
  | err
deriving DecidableEq, Repr

/-- The transport's answer to a receive (R39). -/
inductive RxResult where
  | ok (bytes : Bytes)
  | err
deriving DecidableEq, Repr

/-- What the host does with the request it offers in one step (R33, R62). Until the request is accepted
the host may change it or take it back; an accepted one is out of its reach (log entry 4). -/
inductive Offer where
  /-- The host leaves its offer as it is. -/
  | keep
  /-- The host offers `r`, in place of what it offered before. -/
  | put (r : Request)
  /-- The host offers nothing from now on. -/
  | withdraw
deriving DecidableEq, Repr

/-- What the environment does in one step. Answers carry the number of the bus request they answer,
its place in `State.busLog` counted from 0 (log entry 6). -/
structure Input where
  /-- `RST` is asserted (R41). -/
  rst    : Bool
  /-- What the host does with its offer (R33). -/
  offer  : Offer
  /-- The transport answers a transmit (R39). -/
  tx     : Option (Nat × TxResult)
  /-- The transport answers a receive (R39). -/
  rx     : Option (Nat × RxResult)
  /-- The delay port raises `settle_elapsed` (R40). -/
  settle : Bool
deriving DecidableEq, Repr

/-- The state of the machine. The first five fields are the spec's (R20); the others are the model's:
the ports (R32, R39) and what the environment will do. -/
structure State where
  /-- `CRC` (R21). -/
  crc     : U16
  /-- `STATUS` (R22), read through Machine/Flags.lean. -/
  status  : Byte
  /-- `OUT` (R28). -/
  out     : Bytes
  /-- `WSTATE` (R29). -/
  wstate  : WState
  /-- `WBUF` (R30). -/
  wbuf    : Bytes
  /-- The request at the port: offered and not accepted (R32, R33). -/
  port    : Option Request
  /-- Bus requests issued so far, oldest first (R39). -/
  busLog  : List BusCall
  /-- The bus request last issued awaits its answer (R43). -/
  busOpen : Bool
  /-- What the environment does in the coming steps; past the end, nothing (log entry 3). -/
  inputs  : List Input
deriving DecidableEq, Repr

/-- What the host can read (R34). -/
structure HostView where
  crc    : U16
  status : Byte
  out    : Bytes
  wstate : BitVec 3
deriving DecidableEq, Repr

/-- A stop with a fault. No instruction raises one. -/
inductive Fault where
  /-- Raised by the wake sequencer in `W_RECV` when the transport answers a receive with more bytes
  than were asked for, which R39 excludes ("`Ok(s)` with `len(s) <= n`"). Safe: the machine stops on
  an input the spec does not admit (log entry 8). -/
  | receiveOverrun
deriving DecidableEq, Repr

/-- A stop without a meaning. No instruction of the table raises one. -/
inductive Refusal where
  /-- Raised by `exec` alone, for an instruction that has no meaning yet. Safe. -/
  | notModelled (mnemonic : String)
  /-- Raised by the step when the request at the port has `DATA` longer than `MAX_DATA`, which R32 says
  cannot be offered. Safe: the machine stops on an input the spec does not admit (log entry 7). -/
  | dataNotOfferable
deriving DecidableEq, Repr

/-- The machine right after reset: the values of R42 and R240, and ports on which nothing has
happened (log entries 3, 4 and 6). -/
def State.reset : State :=
  { crc := 0x0000#16, status := 0x00#8, out := [], wstate := .idle, wbuf := []
    port := none, busLog := [], busOpen := false, inputs := [] }

end Sys2Proof.Machine
end

