-- ==== Sys2Proof/Machine/Flags.lean ====
section
/-! DEFINITION. The fields of `STATUS` (10_state.md R22) and the status codes (60_exceptions.md R210):
reading a field and writing one field, every other bit kept. -/

namespace Sys2Proof.Machine

/-- The number of a status code (R210). -/
def ErrCode.code : ErrCode → BitVec 4
  | .ok                       => 0#4
  | .busTransportError        => 1#4
  | .wakeFailed               => 2#4
  | .unexpectedResponseLength => 3#4
  | .checksumMismatch         => 4#4
  | .transportShortRead       => 5#4
  | .badRequest               => 6#4
  | .unrecognizedLockState    => 7#4

/-- `STATUS.ERR`, bits 3:0 (R22, R23). -/
def statusErr (st : Byte) : BitVec 4 := st.extractLsb' 0 4

/-- `STATUS.DONE`, bit 4 (R22, R24). -/
def statusDone (st : Byte) : Bool := st.getLsbD 4

/-- `STATUS.BUSY`, bit 5 (R22, R25). -/
def statusBusy (st : Byte) : Bool := st.getLsbD 5

/-- `STATUS.CRCOK`, bit 6 (R22, R26). -/
def statusCrcok (st : Byte) : Bool := st.getLsbD 6

/-- `STATUS[7]`, reserved (R27). -/
def statusReserved (st : Byte) : Bool := st.getLsbD 7

/-- `STATUS` with the bits of `mask` all 1 or all 0, the others kept. -/
def writeBits (mask : Byte) (b : Bool) (st : Byte) : Byte :=
  if b then st ||| mask else st &&& ~~~mask

/-- `STATUS.ERR <- E`. -/
def setErr (e : ErrCode) (st : Byte) : Byte := (st &&& 0xF0#8) ||| e.code.setWidth 8

/-- `STATUS.DONE <- b`. -/
def setDone (b : Bool) (st : Byte) : Byte := writeBits 0x10#8 b st

/-- `STATUS.BUSY <- b`. -/
def setBusy (b : Bool) (st : Byte) : Byte := writeBits 0x20#8 b st

/-- `STATUS.CRCOK <- b`. -/
def setCrcok (b : Bool) (st : Byte) : Byte := writeBits 0x40#8 b st

/-- What `accept` writes to `STATUS` (R31). -/
def acceptStatus (st : Byte) : Byte := setCrcok false (setErr .ok (setDone false (setBusy true st)))

/-- What `finish(E)` writes to `STATUS` (R31). -/
def finishStatus (e : ErrCode) (st : Byte) : Byte := setDone true (setBusy false (setErr e st))

end Sys2Proof.Machine
end

