-- ==== Sys2Proof/Machine/Operands.lean ====
section
/-! DEFINITION. Operand forms: the byte-sequence and byte-order notation of 00_scope.md R9 and R10, as
the operations use it. -/

namespace Sys2Proof.Machine

/-- `lo8(v) = v[7:0]` (R9). -/
def lo8 (v : U16) : Byte := v.extractLsb' 0 8

/-- `hi8(v) = v[15:8]` (R9). -/
def hi8 (v : U16) : Byte := v.extractLsb' 8 8

/-- The two wire bytes of a u16, low byte first (R54, R103). -/
def wireBytes (v : U16) : Bytes := [lo8 v, hi8 v]

/-- The number two wire bytes stand for, `zext_16(b0) + 256 * zext_16(b1)` (R56). -/
def wireNumber (b0 b1 : Byte) : U16 := b0.setWidth 16 + 256#16 * b1.setWidth 16

/-- `s[i..j)` (R10): empty when `j <= i`. -/
def slice (s : Bytes) (i j : Nat) : Bytes := (s.drop i).take (j - i)

/-- `s` without its last two bytes: what a trailing checksum covers (R105). -/
def body (s : Bytes) : Bytes := slice s 0 (s.length - 2)

/-- The last two bytes of `s`: its trailing checksum (R105). -/
def trailer (s : Bytes) : Bytes := slice s (s.length - 2) s.length

/-- The `XLEN` test fails: byte 0 is not the expected length (R74). With `XLEN = 0` there is no
expected length and the test cannot fail. -/
def lengthByteDiffers (xlen : Option Byte) (data : Bytes) : Bool :=
  match xlen with
  | none   => false
  | some x => data.head? != some x

/-- The value of `WSTATE` the host reads (R29). -/
def WState.code : WState → BitVec 3
  | .idle   => 0#3
  | .pulse  => 1#3
  | .settle => 2#3
  | .recv   => 3#3
  | .cmp    => 4#3

end Sys2Proof.Machine
end

