-- ==== Sys2Proof/Machine/Ops.lean ====
section
/-! DEFINITION. The shared operations: accepting a request and completing it (10_state.md R31), the
status-code report that stands for an exception here (60_exceptions.md R211, R216), reset (R41), the
ports, and what the host reads (R34). -/

namespace Sys2Proof.Machine

/-- `STATUS.BUSY` of a state. -/
def State.busy (s : State) : Bool := statusBusy s.status

/-- `accept(req)` (R31). -/
def State.accept (s : State) : State := { s with status := acceptStatus s.status, out := [] }

/-- `finish(E)` (R31). It is also `raise E` (R31, R211): an error is a completion with a code, from
which nothing returns but the next acceptance (R216, R217). -/
def State.finish (e : ErrCode) (s : State) : State :=
  { s with status := finishStatus e s.status, wstate := .idle }

/-- Offer one operation: it runs from the accepted state when `BUSY = 0`, and is held, nothing changed,
while `BUSY = 1` (R33; log entry 9). -/
def State.request (op : State → State) (s : State) : Host.Outcome State Fault Refusal :=
  .next (if s.busy then s else op s.accept)

/-- `OUT <- bytes`, then `finish(OK)`. -/
def State.deliver (bytes : Bytes) (s : State) : State := { s with out := bytes }.finish .ok

/-- An accepted request whose descriptor is not legal (30_encoding.md R77). -/
def execBadRequest (s : State) : Host.Outcome State Fault Refusal :=
  s.request (State.finish .badRequest)

/-- `RST` (R41, R240): every state element to its value in R42, in one step. An outstanding bus request
is not completed (R241). The ports are not block state and keep their contents (R42). -/
def State.assertReset (s : State) : State :=
  { s with crc := 0x0000#16, status := 0x00#8, out := [], wstate := .idle, wbuf := [], busOpen := false }

/-- What the host reads, at any time and without side effect (R34). -/
def State.hostView (s : State) : HostView :=
  { crc := s.crc, status := s.status, out := s.out, wstate := s.wstate.code }

/-- A step in which the environment does nothing. -/
def Input.quiet : Input := { rst := false, offer := .keep, tx := none, rx := none, settle := false }

/-- What the environment does in this step; past the end of the list, nothing. -/
def State.input (s : State) : Input := s.inputs.headD Input.quiet

/-- What stands at the request port after the host's action, `held` having stood there. -/
def Offer.apply (o : Offer) (held : Option Request) : Option Request :=
  match o with
  | .keep     => held
  | .put r    => some r
  | .withdraw => none

/-- The request the host offers in this step (R33). -/
def State.offered (s : State) : Option Request := s.input.offer.apply s.port

/-- Take this step's input off the list; the request port holds what the host offers in it. -/
def State.takeInput (s : State) : State :=
  { s with inputs := s.inputs.tail, port := s.offered }

/-- Issue a bus request, unless it is already outstanding (R39; log entry 5). -/
def State.issue (call : BusCall) (s : State) : State :=
  if s.busOpen then s else { s with busLog := s.busLog ++ [call], busOpen := true }

/-- The answer an input brings to the outstanding bus request, if it brings one: an answer that carries
another number is discarded (R241). -/
def State.answered (s : State) {α : Type} (a : Option (Nat × α)) : Option α :=
  match a with
  | some (n, r) => if s.busOpen && n + 1 == s.busLog.length then some r else none
  | none => none

/-- The outstanding bus request is answered. -/
def State.closeBus (s : State) : State := { s with busOpen := false }

/-- Take the request off the port: its capture at acceptance (R33, R62). -/
def State.takeOffer (s : State) : State := { s with port := none }

/-- Place a request where the next step takes one: at the port, with `BUSY = 0`, no wake in progress, and
neither `RST` nor another offer in the coming step (log entry 10). -/
def State.placeRequest (r : Request) (s : State) : State :=
  let t := if s.busy then { s with status := setBusy false s.status, wstate := .idle, busOpen := false } else s
  { t with
    port := some r
    inputs := if t.input.rst || t.input.offer != .keep then Input.quiet :: t.inputs else t.inputs }

end Sys2Proof.Machine
end

