-- ==== Sys2Proof/Machine/Checksum.lean ====
section
/-! DEFINITION. The Checksum-16 generator (40_checksum.md): the bit-serial algorithm, validation, and
the operations CRC and CHK. -/

namespace Sys2Proof.Machine

/-- One bit step (R100): the top bit is read before the shift, the exclusive-or follows it. -/
def crcBit (r : U16) (d : Bool) : U16 :=
  let t := r.getLsbD 15
  let r' := r <<< 1
  if d != t then r' ^^^ Config.crcPoly else r'

/-- One byte step (R101): bit 0 first, bit 7 last. -/
def crcByte (r : U16) (b : Byte) : U16 :=
  [0, 1, 2, 3, 4, 5, 6, 7].foldl (fun r i => crcBit r (b.getLsbD i)) r

/-- The checksum of a byte sequence (R102). -/
def crc16 (s : Bytes) : U16 := s.foldl crcByte Config.crcInit

/-- The wire form of a checksum (R103). -/
def crcBytes (c : U16) : Bytes := wireBytes c

/-- `valid(s)` (R105): fails closed below 3 bytes. -/
def valid (s : Bytes) : Bool :=
  if s.length < 3 then false else trailer s == crcBytes (crc16 (body s))

/-- `CRC` after acceptance (R104). -/
def crcOp (data : Bytes) (s : State) : State :=
  let c := crc16 data
  { s with crc := c }.deliver (crcBytes c)

/-- `CHK` after acceptance (R106). -/
def chkOp (data : Bytes) (s : State) : State :=
  if data.length < 3 then s.finish .ok
  else
    let c := crc16 (body data)
    { s with crc := c, status := setCrcok (trailer data == crcBytes c) s.status }.finish .ok

/-- `CRC` (R104). -/
def execCrc (data : Bytes) (s : State) : Host.Outcome State Fault Refusal := s.request (crcOp data)

/-- `CHK` (R106). -/
def execChk (data : Bytes) (s : State) : Host.Outcome State Fault Refusal := s.request (chkOp data)

end Sys2Proof.Machine
end

