-- ==== Sys2Proof/Machine/Decoder.lean ====
section
/-! DEFINITION. The response-frame decoder (42_decoder.md): fixed mode (R150) and full mode (R152), with
the order of checks of R151. -/

namespace Sys2Proof.Machine

/-- Check the trailing checksum of `env`, which has at least 3 bytes, and deliver `payload`: `CRC` is
written in both cases, `CRCOK` only on a match (R150, R152, R158). -/
def checkedDeliver (env payload : Bytes) (s : State) : State :=
  let c := crc16 (body env)
  let t := { s with crc := c }
  if trailer env == crcBytes c then
    { t with status := setCrcok true t.status }.deliver payload
  else t.finish .checksumMismatch

/-- `DEC` in fixed mode after acceptance (R150). `xlen` holds `XLENV` when `REQ.XLEN = 1`. -/
def decFixedOp (val : Bool) (xlen : Option Byte) (data : Bytes) (nexp : Byte) (s : State) : State :=
  let n := nexp.toNat
  let payload := slice data 1 (1 + n)
  if data.length < 1 + n then s.finish .transportShortRead
  else if lengthByteDiffers xlen data then s.finish .unexpectedResponseLength
  else if val then
    if data.length < 3 then s.finish .checksumMismatch else checkedDeliver data payload s
  else s.deliver payload

/-- `DEC` in full mode after acceptance (R152). `xlen` holds `XLENV` when `REQ.XLEN = 1`. -/
def decFullOp (xlen : Option Byte) (data : Bytes) (s : State) : State :=
  match data with
  | [] => s.finish .transportShortRead
  | b :: _ =>
    let len := b.toNat
    if lengthByteDiffers xlen data then s.finish .unexpectedResponseLength
    else if len < Config.respOverhead then s.finish .unexpectedResponseLength
    else if data.length < len then s.finish .transportShortRead
    else checkedDeliver (slice data 0 len) (slice data 1 (len - 2)) s

/-- `DEC.FIXED` (R150). -/
def execDecFixed (data : Bytes) (nexp : Byte) (s : State) : Host.Outcome State Fault Refusal :=
  s.request (decFixedOp false none data nexp)

/-- `DEC.FIXED.VAL` (R150). -/
def execDecFixedVal (data : Bytes) (nexp : Byte) (s : State) : Host.Outcome State Fault Refusal :=
  s.request (decFixedOp true none data nexp)

/-- `DEC.FIXED.XLEN` (R150). -/
def execDecFixedXlen (data : Bytes) (nexp xlenv : Byte) (s : State) : Host.Outcome State Fault Refusal :=
  s.request (decFixedOp false (some xlenv) data nexp)

/-- `DEC.FIXED.VAL.XLEN` (R150). -/
def execDecFixedValXlen (data : Bytes) (nexp xlenv : Byte) (s : State) : Host.Outcome State Fault Refusal :=
  s.request (decFixedOp true (some xlenv) data nexp)

/-- `DEC.FULL` (R152). -/
def execDecFull (data : Bytes) (s : State) : Host.Outcome State Fault Refusal :=
  s.request (decFullOp none data)

/-- `DEC.FULL.XLEN` (R152). -/
def execDecFullXlen (data : Bytes) (xlenv : Byte) (s : State) : Host.Outcome State Fault Refusal :=
  s.request (decFullOp (some xlenv) data)

end Sys2Proof.Machine
end

