-- ==== Sys2Proof/Machine/Encoder.lean ====
section
/-! DEFINITION. The command-frame encoder (41_encoder.md) and its wire layout (30_encoding.md R81). -/

namespace Sys2Proof.Machine

/-- The frame bytes the checksum covers: the length byte through the payload (R130, R133). For a payload
of at most `MAX_PAYLOAD` bytes the length fits its byte (R131). -/
def frameBody (opc p1 : Byte) (p2 : U16) (data : Bytes) : Bytes :=
  [BitVec.ofNat 8 (Config.cmdOverhead + data.length), opc, p1] ++ wireBytes p2 ++ data

/-- `ENC` after acceptance (R130). -/
def encOp (opc p1 : Byte) (p2 : U16) (data : Bytes) (s : State) : State :=
  if Config.maxPayload < data.length then s.finish .badRequest
  else
    let frame := frameBody opc p1 p2 data
    let c := crc16 frame
    { s with crc := c }.deliver ([Config.cmdHeader] ++ frame ++ crcBytes c)

/-- `ENC` (R130). -/
def execEnc (opc p1 : Byte) (p2 : U16) (data : Bytes) (s : State) : Host.Outcome State Fault Refusal :=
  s.request (encOp opc p1 p2 data)

end Sys2Proof.Machine
end

