-- ==== Sys2Proof/Machine/Wake.lean ====
section
/-! DEFINITION. The wake sequencer (43_wake.md): the operation WAKE, whose own effect is to start it
(R181), and the transitions the machine takes while `BUSY = 1` (R182 to R190). A wait is a step in which
no transition fires (R191). -/

namespace Sys2Proof.Machine

/-- `WAKE` after acceptance (R181). -/
def wakeOp (s : State) : State := { s with wbuf := [], wstate := .pulse }

/-- `WAKE` (R180). -/
def execWake (s : State) : Host.Outcome State Fault Refusal := s.request wakeOp

/-- Every path out of the sequencer: `OUT <- WBUF`, then `finish(E)` (R189). -/
def State.endWake (e : ErrCode) (s : State) : State := { s with out := s.wbuf }.finish e

/-- `W_PULSE` (R182, R183). -/
def wakePulseStep (i : Input) (s : State) : Host.Outcome State Fault Refusal :=
  let t := s.issue (.transmit Config.wakePulse)
  match t.answered i.tx with
  | none      => .next t
  | some .ok  => .next { t.closeBus with wstate := .settle }
  | some .err => .next (t.closeBus.endWake .busTransportError)

/-- `W_SETTLE` (R184). -/
def wakeSettleStep (i : Input) (s : State) : Host.Outcome State Fault Refusal :=
  .next (if i.settle then { s with wstate := .recv } else s)

/-- `W_RECV` (R185 to R187). -/
def wakeRecvStep (i : Input) (s : State) : Host.Outcome State Fault Refusal :=
  let t := s.issue (.receive Config.wakeAckLen)
  match t.answered i.rx with
  | none => .next t
  | some .err => .next (t.closeBus.endWake .busTransportError)
  | some (.ok bytes) =>
    let u := { t.closeBus with wbuf := bytes }
    if Config.wakeAckLen < bytes.length then .fault .receiveOverrun
    else if bytes.length < Config.wakeAckLen then .next (u.endWake .wakeFailed)
    else .next { u with wstate := .cmp }

/-- What comparing the received bytes with the acknowledgment gives (R188). -/
def wakeVerdict (ack received : Bytes) : ErrCode := if received == ack then .ok else .wakeFailed

/-- `W_CMP` (R188). -/
def wakeCmpStep (s : State) : Host.Outcome State Fault Refusal :=
  .next (s.endWake (wakeVerdict Config.wakeAck.toList s.wbuf))

/-- One step of the wake sequencer (R190). `W_IDLE` has no transition but the acceptance of a WAKE, so a
state with `BUSY = 1` and `W_IDLE`, which R29 excludes, stays as it is (log entry 12). -/
def wakeStep (i : Input) (s : State) : Host.Outcome State Fault Refusal :=
  match s.wstate with
  | .idle   => .next s
  | .pulse  => wakePulseStep i s
  | .settle => wakeSettleStep i s
  | .recv   => wakeRecvStep i s
  | .cmp    => wakeCmpStep s

end Sys2Proof.Machine
end

