-- ==== Sys2Proof/Machine/Dispatch.lean ====
section
/-! DEFINITION. One arm per instruction, each one call of its meaning. -/

namespace Sys2Proof.Machine

def exec (i : Instr) (s : State) : Host.Outcome State Fault Refusal :=
  match i with
  | .crc data => Sys2Proof.Machine.execCrc data s
  | .chk data => Sys2Proof.Machine.execChk data s
  | .enc opc p1 p2 data => Sys2Proof.Machine.execEnc opc p1 p2 data s
  | .decFixed data nexp => Sys2Proof.Machine.execDecFixed data nexp s
  | .decFixedVal data nexp => Sys2Proof.Machine.execDecFixedVal data nexp s
  | .decFixedXlen data nexp xlenv => Sys2Proof.Machine.execDecFixedXlen data nexp xlenv s
  | .decFixedValXlen data nexp xlenv => Sys2Proof.Machine.execDecFixedValXlen data nexp xlenv s
  | .decFull data => Sys2Proof.Machine.execDecFull data s
  | .decFullXlen data xlenv => Sys2Proof.Machine.execDecFullXlen data xlenv s
  | .wake => Sys2Proof.Machine.execWake s

end Sys2Proof.Machine
end

