-- ==== Sys2Proof/Machine/Step.lean ====
section
/-! DEFINITION. One step of the machine: reset first (60_exceptions.md R215), then the wake in progress
(10_state.md R33: an offered request is held while `BUSY = 1`), then the request at the port. -/

namespace Sys2Proof.Machine

/-- Accept the request `r` and run it (R33, R77). -/
def serve (r : Request) (s : State) : Host.Outcome State Fault Refusal :=
  if r.offerable then
    match decode r with
    | .ok i    => exec i s
    | .error _ => execBadRequest s
  else .refused .dataNotOfferable

/-- One step. With nothing to do, the block keeps its state. -/
def step (s : State) : Host.Outcome State Fault Refusal :=
  let i := s.input
  let t := s.takeInput
  if i.rst then .next t.assertReset
  else if t.busy then wakeStep i t
  else
    match t.port with
    | none   => .next t
    | some r => serve r t.takeOffer

/-- `s` with the request of a table row's word offered where the next step accepts one. -/
def State.withFetchWord (s : State) (nbits w : Nat) : State := s.placeRequest (tableRequest nbits w)

end Sys2Proof.Machine
end

