-- ==== Sys2Proof/Safety.lean ====
section
/-! DEFINITION. What a state of a run looks like (`Inv`), what the environment may bring (`Admissible`),
and the host's obligations of 70_reset_and_hazards.md R243 to R250 as a checker over the host's
actions. No step consults any of these. -/

namespace Sys2Proof.Machine

/-- The relations between state elements that hold from reset on. -/
structure Inv (s : State) : Prop where
  /-- "The relation `BUSY = 1 -> DONE = 0` always holds" (R25). -/
  busy_not_done : s.busy = true → statusDone s.status = false
  /-- "`WSTATE != W_IDLE <-> (BUSY = 1)`" (R29). -/
  busy_iff_wake : s.busy = true ↔ s.wstate ≠ .idle
  /-- `STATUS[7]` reads 0 (R27). -/
  reserved_zero : statusReserved s.status = false
  /-- `ERR` is a code the block produces, 0 to 6 (R210). -/
  err_produced : (statusErr s.status).toNat ≤ 6
  /-- `OUT` has at most `MAX_OUT` bytes (R28). -/
  out_bounded : s.out.length ≤ Config.maxOut
  /-- `WBUF` has at most 4 bytes (R30). -/
  wbuf_bounded : s.wbuf.length ≤ Config.wakeAckLen
  /-- "During a WAKE, `OUT` reads `[]` until the operation completes, and `STATUS.ERR` reads `OK`"
  (R251); `CRCOK` is 0 (R26). -/
  wake_report : s.busy = true → s.out = [] ∧ statusErr s.status = 0#4 ∧ statusCrcok s.status = false
  /-- Until a receive is answered `WBUF` is empty (R181, R185). -/
  wbuf_empty : s.wstate = .pulse ∨ s.wstate = .settle ∨ s.wstate = .recv → s.wbuf = []
  /-- In `W_CMP` four bytes were received (R29, R185). -/
  cmp_full : s.wstate = .cmp → s.wbuf.length = Config.wakeAckLen
  /-- The one outstanding bus request is the pulse in `W_PULSE` or the receive in `W_RECV` (R43). -/
  bus_request : s.busOpen = true →
    (s.wstate = .pulse ∧ s.busLog.getLast? = some (.transmit Config.wakePulse)) ∨
    (s.wstate = .recv ∧ s.busLog.getLast? = some (.receive Config.wakeAckLen))

/-- An input the ports admit: an offered request has at most `MAX_DATA` bytes of `DATA` (R32), and a
receive is answered with at most the bytes asked for (R39). -/
def Input.admissible (i : Input) : Bool :=
  (match i.offer with
   | .put r => r.offerable
   | _ => true) &&
  (match i.rx with
   | some (_, .ok bytes) => decide (bytes.length ≤ Config.wakeAckLen)
   | _ => true)

/-- The request at the port and everything the environment will bring are admissible. -/
def Admissible (s : State) : Prop :=
  (∀ r, s.port = some r → r.offerable = true) ∧ ∀ i ∈ s.inputs, i.admissible = true

/-- A run of `k` steps with no stop in it. -/
def Reaches (k : Nat) (s t : State) : Prop := Host.Core.run Sys2Proof.core k s = .next t

/-- Where a host stands in the transaction of R244. -/
inductive HostPhase where
  /-- A new WAKE must end `OK` before the next command (R241, R249). -/
  | mustWake
  /-- Between transactions. -/
  | ready
  /-- Step 1 done: a WAKE ended `OK`. -/
  | awake
  /-- Step 2 done: ENC left this frame in `OUT`. -/
  | framed (frame : Bytes)
  /-- Step 3 done: the frame is transmitted. -/
  | sent
  /-- Step 4 done: the command's settle delay has elapsed. -/
  | settled
  /-- Step 5 done: these bytes were received. -/
  | received (bytes : Bytes)
deriving DecidableEq, Repr

/-- What a host does, each action with what the host reads of the block then (R34) and the outcome. -/
inductive HostAct where
  /-- A request completed, and the host read `v` (R244). -/
  | completed (i : Instr) (v : HostView)
  /-- The host's own transmit (R244 step 3). -/
  | transmit (v : HostView) (bytes : Bytes) (r : TxResult)
  /-- The host waits out the command's settle delay (R245). -/
  | settle
  /-- The host's own receive into a buffer of `count` bytes (R244 step 5). -/
  | receive (v : HostView) (count : Nat) (r : RxResult)
  /-- The host sends the idle command, whose bytes the source does not give (R246). -/
  | idleCommand (v : HostView)
  /-- The host gives up the transaction (R249). -/
  | abandon
  /-- `RST` while a WAKE is in progress (R241). -/
  | resetInWake
deriving DecidableEq, Repr

/-- DEC of the received bytes ends the transaction (R244 step 6). -/
def HostPhase.afterDec (p : HostPhase) (data : Bytes) : HostPhase :=
  if p = .received data then .ready else p

/-- WAKE must end `OK` (R243), and no transaction starts inside another (R248). DESIGN CHOICE (log entry
14): a WAKE that failed outside `mustWake` ends the transaction it began and leaves `ready`, where a new one
is due only as `HostPhase.mayStart` says; and WAKE may be run again when step 1 of R244 is done already
(`awake`), without giving up the transaction. -/
def HostPhase.afterWake (p : HostPhase) (ok : Bool) : Option HostPhase :=
  match p with
  | .mustWake => some (if ok then .awake else .mustWake)
  | .ready | .awake => some (if ok then .awake else .ready)
  | _ => none

/-- Which commands need an awake secure element, by opcode, parameters and payload: "Which commands need it
belongs to the Command Catalog" (R243), so the checker takes it as an argument (log entry 18). -/
abbrev AwakeCommands := Byte → Byte → U16 → Bytes → Bool

/-- The command may be built in this phase: after a WAKE that ended `OK`, or, where it needs no awake chip,
between transactions too (R243; log entry 18). -/
def HostPhase.mayStart (needs : AwakeCommands) (p : HostPhase) (opc p1 : Byte) (p2 : U16) (data : Bytes) : Bool :=
  match p with
  | .awake => true
  | .ready => !needs opc p1 p2 data
  | _      => false

/-- The phase after a request that completed, `v` read at `DONE = 1` (R251). CRC and CHK use no bus and
change nothing. -/
def HostPhase.afterRequest (needs : AwakeCommands) (p : HostPhase) (i : Instr) (v : HostView) : Option HostPhase :=
  let ok := statusErr v.status == 0#4
  if statusDone v.status then
    match i with
    | .crc _ | .chk _ => some p
    | .wake => p.afterWake ok
    | .enc opc p1 p2 data =>
      if p.mayStart needs opc p1 p2 data then some (if ok then .framed v.out else .ready) else none
    | .decFixed d _ | .decFixedVal d _ | .decFixedXlen d _ _ | .decFixedValXlen d _ _
    | .decFull d | .decFullXlen d _ => some (p.afterDec d)
  else none

/-- The phase after an action, or none where the action breaks an obligation of R243 to R250. DESIGN CHOICE
(log entry 14): a transmit that failed, and a receive that failed or came short after the command was
transmitted, end the transaction and leave `ready`, where a WAKE is due only as `HostPhase.mayStart` says
(R243); and the idle command leaves the phase as it is and makes no WAKE due. Giving up a transaction needs a new
WAKE (R249) where its command is transmitted and its receive not done (`sent`, `settled`); before the
transmit (`awake`, `framed`) or after the receive (`received`) it leaves `ready`. -/
def HostPhase.after (needs : AwakeCommands) (p : HostPhase) (a : HostAct) : Option HostPhase :=
  match a with
  | .completed i v => p.afterRequest needs i v
  | .transmit v bytes r =>
    if p = .framed bytes ∧ statusBusy v.status = false then
      some (if r = .ok then .sent else .ready)
    else none
  | .settle => if p = .sent then some .settled else none
  | .receive v count r =>
    if p = .settled ∧ statusBusy v.status = false then
      match r with
      | .ok bytes => some (if bytes.length = count then .received bytes else .ready)
      | .err => some .ready
    else none
  | .idleCommand v =>
    if (p = .ready ∨ p = .mustWake) ∧ statusBusy v.status = false then some p else none
  | .abandon => some (if p = .sent ∨ p = .settled ∨ p = .mustWake then .mustWake else .ready)
  | .resetInWake => some .mustWake

/-- The phase after a list of actions that breaks no obligation. -/
def HostPhase.run (needs : AwakeCommands) (p : HostPhase) : List HostAct → Option HostPhase
  | [] => some p
  | a :: rest => (p.after needs a).bind fun q => q.run needs rest

end Sys2Proof.Machine
end

