-- ==== Sys2Proof/Certificates/Slice0/Obligations.lean ====
section
/-! DEFINITION. The statements for the provers. Each says which rule of spec/ it formalises; one that rests
on a choice of the model names its log entry. `done s b out c` below is a completed request's state:
`STATUS` reads `b` in bits 6:0 and keeps bit 7 (10_state.md R27), as 95_test_vectors.md writes it: 0x10
done, 0x50 done with a checksum match, 0x11 to 0x16 done with a code. The port is open where `BUSY = 0`
(R33). -/

namespace Sys2Proof.Machine.Claims

/-- `STATUS` with `b` in bits 6:0 and bit 7 as it was. -/
def statusWith (s : State) (b : Byte) : Byte := (s.status &&& 0x80#8) ||| b

/-- The state a completed request leaves: `STATUS`, `OUT`, `CRC` and `W_IDLE`; all else as before. -/
def done (s : State) (b : Byte) (out : Bytes) (c : U16) : State :=
  { s with crc := c, status := statusWith s b, out := out, wstate := .idle }

/-- The checksum field of the buffer `e`: the checksum of all but its last two bytes. -/
def sumOf (e : Bytes) : U16 := crc16 (e.take (e.length - 2))

/-- The payload of `n` bytes after byte 0. -/
def payloadOf (data : Bytes) (n : Nat) : Bytes := (data.drop 1).take n

/-- The operations a checksum comparison can make succeed, and what it must hold of (R26). -/
def comparesAndMatches : Instr → Prop
  | .chk d                 => valid d = true
  | .decFixedVal d n       => 1 + n.toNat ≤ d.length ∧ valid d = true
  | .decFixedValXlen d n x => 1 + n.toNat ≤ d.length ∧ d.head? = some x ∧ valid d = true
  | .decFull d             =>
    ∃ b, d.head? = some b ∧ 3 ≤ b.toNat ∧ b.toNat ≤ d.length ∧ valid (d.take b.toNat) = true
  | .decFullXlen d x       =>
    d.head? = some x ∧ 3 ≤ x.toNat ∧ x.toNat ≤ d.length ∧ valid (d.take x.toNat) = true
  | _ => False

/-- The bytes whose checksum an operation computes, if it comes to compute one (R21). -/
def checksummed : Instr → Option Bytes
  | .crc d => some d
  | .chk d => if 3 ≤ d.length then some (d.take (d.length - 2)) else none
  | .enc opc p1 p2 d =>
    if d.length ≤ 248 then
      some ([BitVec.ofNat 8 (7 + d.length), opc, p1, lo8 p2, hi8 p2] ++ d)
    else none
  | .decFixed _ _ => none
  | .decFixedVal d n =>
    if 1 + n.toNat ≤ d.length ∧ 3 ≤ d.length then some (d.take (d.length - 2)) else none
  | .decFixedXlen _ _ _ => none
  | .decFixedValXlen d n x =>
    if 1 + n.toNat ≤ d.length ∧ d.head? = some x ∧ 3 ≤ d.length then
      some (d.take (d.length - 2))
    else none
  | .decFull d =>
    match d with
    | [] => none
    | L :: _ => if 3 ≤ L.toNat ∧ L.toNat ≤ d.length then some (d.take (L.toNat - 2)) else none
  | .decFullXlen d x =>
    if d.head? = some x ∧ 3 ≤ x.toNat ∧ x.toNat ≤ d.length then some (d.take (x.toNat - 2)) else none
  | .wake => none

/-- The codes an operation can report once accepted (R210, R215); WAKE reports later. -/
def codesOf : Instr → List (BitVec 4)
  | .crc _ => [0#4]
  | .chk _ => [0#4]
  | .enc _ _ _ _ => [0#4, 6#4]
  | .decFixed _ _ => [0#4, 5#4]
  | .decFixedVal _ _ => [0#4, 4#4, 5#4]
  | .decFixedXlen _ _ _ => [0#4, 3#4, 5#4]
  | .decFixedValXlen _ _ _ => [0#4, 3#4, 4#4, 5#4]
  | .decFull _ => [0#4, 3#4, 4#4, 5#4]
  | .decFullXlen _ _ => [0#4, 3#4, 4#4, 5#4]
  | .wake => [0#4]

/-- The pulse is on the bus: issued in this step unless it is outstanding already. -/
def pulseIssued (s : State) : State :=
  { s.takeInput with
    busLog := if s.busOpen then s.busLog else s.busLog ++ [.transmit [0x00#8]], busOpen := true }

/-- The receive of 4 bytes is on the bus: issued in this step unless it is outstanding already. -/
def receiveIssued (s : State) : State :=
  { s.takeInput with
    busLog := if s.busOpen then s.busLog else s.busLog ++ [.receive 4], busOpen := true }

/-- The end of a wake: `OUT <- WBUF` and `finish(E)` (R189). -/
def wakeEnded (s : State) (wbuf : Bytes) (e : ErrCode) : State :=
  { s with wbuf := wbuf, out := wbuf, status := finishStatus e s.status, wstate := .idle, busOpen := false }

end Sys2Proof.Machine.Claims

section
open Sys2Proof Sys2Proof.Machine Sys2Proof.Machine.Claims

/-! ## The checksum -/

/-- R100, bit by bit: the next register is the old one moved up by one place, with the feedback
`d xor r[15]` entering at bits 0, 2 and 15. -/
def Obligations.CrcBitIsShiftWithTaps : Prop :=
  ∀ (r : U16) (d : Bool) (i : Nat), i < 16 →
    (crcBit r d).getLsbD i =
      ((decide (0 < i) && r.getLsbD (i - 1)) ^^
        ((d ^^ r.getLsbD 15) && (i == 0 || i == 2 || i == 15)))

/-- R101: the eight bits of a byte, bit 0 first. -/
def Obligations.CrcByteTakesBitZeroFirst : Prop :=
  ∀ (r : U16) (b : Byte),
    crcByte r b = (List.range 8).foldl (fun r i => crcBit r (b.getLsbD i)) r

/-- R102: from 0x0000, every byte, in index order. -/
def Obligations.ChecksumFoldsBytesInOrder : Prop :=
  crc16 [] = 0x0000#16 ∧
    ∀ (s : Bytes) (b : Byte), crc16 (s ++ [b]) = crcByte (crc16 s) b

/-- R103, with R54 and R56: the two wire bytes, low byte first, and the number they stand for. -/
def Obligations.WirePairIsLowByteFirst : Prop :=
  (∀ c : U16, ∃ b0 b1 : Byte, crcBytes c = [b0, b1] ∧ wireBytes c = [b0, b1] ∧
    b0.toNat = c.toNat % 256 ∧ b1.toNat = c.toNat / 256) ∧
  (∀ b0 b1 : Byte, (wireNumber b0 b1).toNat = b0.toNat + 256 * b1.toNat ∧
    wireBytes (wireNumber b0 b1) = [b0, b1])

/-- R105: valid means a message of at least one byte followed by its checksum, low byte first. -/
def Obligations.ValidIffTrailingChecksum : Prop :=
  ∀ s : Bytes, valid s = true ↔
    3 ≤ s.length ∧ ∃ m a b, s = m ++ [a, b] ∧ a = lo8 (crc16 m) ∧ b = hi8 (crc16 m)

/-- R107 (a) to (d). -/
def Obligations.ChecksumLaws : Prop :=
  crc16 [] = 0x0000#16 ∧
  (∀ s, crc16 (0x00#8 :: s) = crc16 s) ∧
  (∀ a b : Bytes, a.length = b.length →
    crc16 (List.zipWith (· ^^^ ·) a b) = crc16 a ^^^ crc16 b) ∧
  (crc16 [0x00#8, 0x00#8, 0x00#8] = 0x0000#16 ∧ crc16 [0x01#8] = 0x8303#16 ∧
    crc16 [0x01#8, 0x03#8, 0x83#8] = 0x0889#16 ∧
    ¬ ∃ c, ∀ s, crc16 (s ++ crcBytes (crc16 s)) = c)

/-- R109: a sequence with its checksum appended is valid, the empty one excepted. -/
def Obligations.ChecksumSelfConsistent : Prop :=
  (∀ s : Bytes, 1 ≤ s.length → valid (s ++ crcBytes (crc16 s)) = true) ∧
    valid ([] ++ crcBytes (crc16 [])) = false

/-! ## The operations that complete in the step that accepts them -/

/-- R104: CRC, its descriptor, its effect, its corner cases, and that with any other bit of the descriptor
set the request is `BadRequest`. -/
def Obligations.CrcOperation : Prop :=
  (∀ r : Request, r.req = 0x00#8 → decode r = .ok (.crc r.data)) ∧
  (∀ (s : State) (data : Bytes), s.busy = false →
    exec (.crc data) s =
      .next (done s 0x10#8 [lo8 (crc16 data), hi8 (crc16 data)] (crc16 data))) ∧
  crc16 [] = 0x0000#16 ∧ (∀ n, crc16 (List.replicate n 0x00#8) = 0x0000#16) ∧
  crc16 [0x80#8] = 0x8005#16 ∧ crc16 [0x04#8, 0x11#8] = 0x4333#16 ∧
  (∀ (s : State) (r : Request), s.busy = false → r.offerable = true → reqOp r.req = 0#3 →
    r.req ≠ 0x00#8 → serve r s = .next (done s 0x16#8 [] s.crc))

/-- R106: CHK, its descriptor, its effect, and that a corruption of one byte is found. -/
def Obligations.ChkOperation : Prop :=
  (∀ r : Request, r.req = 0x01#8 → decode r = .ok (.chk r.data)) ∧
  (∀ (s : State) (data : Bytes), s.busy = false →
    exec (.chk data) s =
      .next (done s (if valid data then 0x50#8 else 0x10#8) []
        (if 3 ≤ data.length then sumOf data else s.crc))) ∧
  (∀ data : Bytes, data.length < 3 → valid data = false) ∧
  valid [0x00#8, 0x00#8, 0x00#8] = true ∧ valid [0x04#8, 0x11#8, 0x33#8, 0x43#8] = true ∧
  crc16 [0x04#8, 0x11#8] = 0x4333#16 ∧
  (∀ (pre post : Bytes) (b b' : Byte), b ≠ b' → valid (pre ++ b :: post) = true →
    valid (pre ++ b' :: post) = false)

/-- R130, R131, R133: ENC, its descriptor, the frame with a length byte that has not wrapped and a
checksum over the frame without the header, and the refusal above 248 bytes. -/
def Obligations.EncOperation : Prop :=
  (∀ r : Request, r.req = 0x02#8 → decode r = .ok (.enc r.opc r.p1 r.p2 r.data)) ∧
  ∀ (s : State) (opc p1 : Byte) (p2 : U16) (data : Bytes), s.busy = false →
    (data.length ≤ 248 →
      ∃ (L : Byte) (frame : Bytes), L.toNat = 7 + data.length ∧
        frame = [L, opc, p1, lo8 p2, hi8 p2] ++ data ∧
        exec (.enc opc p1 p2 data) s =
          .next (done s 0x10#8
            ([Config.cmdHeader] ++ frame ++ [lo8 (crc16 frame), hi8 (crc16 frame)])
            (crc16 frame))) ∧
    (248 < data.length → exec (.enc opc p1 p2 data) s = .next (done s 0x16#8 [] s.crc)) ∧
    crc16 [0x07#8, 0x02#8, 0x00#8, 0x00#8, 0x00#8] = 0x2D1E#16

/-- R135 (a) to (d): what a successful ENC leaves in `OUT`. -/
def Obligations.EncFrameDescribesItself : Prop :=
  ∀ (s t : State) (opc p1 : Byte) (p2 : U16) (data : Bytes), s.busy = false →
    exec (.enc opc p1 p2 data) s = .next t → statusErr t.status = 0#4 →
    (∃ L, t.out[1]? = some L ∧ L.toNat = t.out.length - 1 ∧ L.toNat = 7 + data.length) ∧
    t.out[2]? = some opc ∧ t.out[3]? = some p1 ∧ t.out[4]? = some (lo8 p2) ∧
    t.out[5]? = some (hi8 p2) ∧ slice t.out 6 (6 + data.length) = data ∧
    valid (slice t.out 1 (8 + data.length)) = true

/-- R150: DEC in fixed mode, its four descriptors and every case of its checks, in their order. -/
def Obligations.DecFixedOperation : Prop :=
  (∀ r : Request, (r.req = 0x03#8 → decode r = .ok (.decFixed r.data r.nexp)) ∧
    (r.req = 0x0B#8 → decode r = .ok (.decFixedVal r.data r.nexp)) ∧
    (r.req = 0x23#8 → decode r = .ok (.decFixedXlen r.data r.nexp r.xlenv)) ∧
    (r.req = 0x2B#8 → decode r = .ok (.decFixedValXlen r.data r.nexp r.xlenv))) ∧
  ∀ (s : State) (data : Bytes) (n x : Byte), s.busy = false →
    (data.length < 1 + n.toNat →
      exec (.decFixed data n) s = .next (done s 0x15#8 [] s.crc) ∧
      exec (.decFixedVal data n) s = .next (done s 0x15#8 [] s.crc) ∧
      exec (.decFixedXlen data n x) s = .next (done s 0x15#8 [] s.crc) ∧
      exec (.decFixedValXlen data n x) s = .next (done s 0x15#8 [] s.crc)) ∧
    (1 + n.toNat ≤ data.length →
      exec (.decFixed data n) s = .next (done s 0x10#8 (payloadOf data n.toNat) s.crc)) ∧
    (1 + n.toNat ≤ data.length → data.length < 3 →
      exec (.decFixedVal data n) s = .next (done s 0x14#8 [] s.crc)) ∧
    (1 + n.toNat ≤ data.length → 3 ≤ data.length → valid data = false →
      exec (.decFixedVal data n) s = .next (done s 0x14#8 [] (sumOf data))) ∧
    (1 + n.toNat ≤ data.length → valid data = true →
      exec (.decFixedVal data n) s = .next (done s 0x50#8 (payloadOf data n.toNat) (sumOf data))) ∧
    (1 + n.toNat ≤ data.length → data.head? ≠ some x →
      exec (.decFixedXlen data n x) s = .next (done s 0x13#8 [] s.crc) ∧
      exec (.decFixedValXlen data n x) s = .next (done s 0x13#8 [] s.crc)) ∧
    (1 + n.toNat ≤ data.length → data.head? = some x →
      exec (.decFixedXlen data n x) s = .next (done s 0x10#8 (payloadOf data n.toNat) s.crc) ∧
      exec (.decFixedValXlen data n x) s = exec (.decFixedVal data n) s)

/-- R152: DEC in full mode, its two descriptors and every case of its checks, in their order. -/
def Obligations.DecFullOperation : Prop :=
  (∀ r : Request, (r.req = 0x1B#8 → decode r = .ok (.decFull r.data)) ∧
    (r.req = 0x3B#8 → decode r = .ok (.decFullXlen r.data r.xlenv))) ∧
  ∀ (s : State) (x : Byte), s.busy = false →
    (exec (.decFull []) s = .next (done s 0x15#8 [] s.crc) ∧
      exec (.decFullXlen [] x) s = .next (done s 0x15#8 [] s.crc)) ∧
    ∀ (L : Byte) (rest : Bytes),
      (L.toNat < 3 → exec (.decFull (L :: rest)) s = .next (done s 0x13#8 [] s.crc)) ∧
      (3 ≤ L.toNat → (L :: rest).length < L.toNat →
        exec (.decFull (L :: rest)) s = .next (done s 0x15#8 [] s.crc)) ∧
      (3 ≤ L.toNat → L.toNat ≤ (L :: rest).length → valid ((L :: rest).take L.toNat) = false →
        exec (.decFull (L :: rest)) s =
          .next (done s 0x14#8 [] (sumOf ((L :: rest).take L.toNat)))) ∧
      (3 ≤ L.toNat → L.toNat ≤ (L :: rest).length → valid ((L :: rest).take L.toNat) = true →
        exec (.decFull (L :: rest)) s =
          .next (done s 0x50#8 (rest.take (L.toNat - 3)) (sumOf ((L :: rest).take L.toNat)))) ∧
      (L ≠ x → exec (.decFullXlen (L :: rest) x) s = .next (done s 0x13#8 [] s.crc)) ∧
      (L = x → exec (.decFullXlen (L :: rest) x) s = exec (.decFull (L :: rest)) s)

/-- R158: which checksum DEC checks, and that it decides the outcome. -/
def Obligations.DecChecksTheWholeEnvelope : Prop :=
  ∀ (s : State) (data : Bytes), s.busy = false → 3 ≤ data.length →
    (∀ n : Byte, n.toNat ≤ data.length - 1 →
      (∀ t, exec (.decFixedVal data n) s = .next t →
        (statusErr t.status = 0#4 ↔ valid data = true)) ∧
      (∀ x t, exec (.decFixedValXlen data n x) s = .next t →
        (statusErr t.status = 0#4 ↔ valid data = true ∧ data.head? = some x))) ∧
    (∀ L : Byte, data.head? = some L → 3 ≤ L.toNat → L.toNat ≤ data.length →
      ∀ t, exec (.decFull data) s = .next t →
        (statusErr t.status = 0#4 ↔ valid (data.take L.toNat) = true)) ∧
    (∀ L x : Byte, data.head? = some L → 3 ≤ L.toNat → L.toNat ≤ data.length →
      ∀ t, exec (.decFullXlen data x) s = .next t →
        (statusErr t.status = 0#4 ↔ valid (data.take L.toNat) = true ∧ L = x))

/-- R154: bytes of the buffer beyond what the mode reads do not matter. -/
def Obligations.DecIgnoresUnreadBytes : Prop :=
  ∀ (s : State) (data x y : Bytes),
    (∀ n : Byte, 1 + n.toNat ≤ data.length →
      exec (.decFixed (data ++ x) n) s = exec (.decFixed (data ++ y) n) s ∧
      ∀ v, exec (.decFixedXlen (data ++ x) n v) s = exec (.decFixedXlen (data ++ y) n v) s) ∧
    (∀ L : Byte, data.head? = some L → L.toNat ≤ data.length →
      exec (.decFull (data ++ x)) s = exec (.decFull (data ++ y)) s ∧
      ∀ v, exec (.decFullXlen (data ++ x) v) s = exec (.decFullXlen (data ++ y) v) s)

/-- Both DEC modes give the same on an envelope whose byte 0 is its length (95_test_vectors.md P5). -/
def Obligations.FullAndFixedModesAgree : Prop :=
  ∀ (s : State) (data : Bytes) (L n : Byte), data.head? = some L → data.length = L.toNat →
    3 ≤ L.toNat → n.toNat = L.toNat - 3 →
    exec (.decFull data) s = exec (.decFixedVal data n) s

/-- 95_test_vectors.md 2.3 and P1: the frame ENC builds, its header left out, is an envelope from which
DEC returns what ENC was given. -/
def Obligations.EncodedFrameDecodes : Prop :=
  ∀ (s t u : State) (opc p1 : Byte) (p2 : U16) (data : Bytes), s.busy = false → u.busy = false →
    data.length ≤ 248 → exec (.enc opc p1 p2 data) s = .next t →
    exec (.decFull (t.out.drop 1)) u =
      .next (done u 0x50#8 ([opc, p1, lo8 p2, hi8 p2] ++ data) t.crc)

/-- A frame ENC built with one byte after its length byte changed on the way is not delivered. -/
def Obligations.CorruptedFrameIsNotDelivered : Prop :=
  ∀ (s t u : State) (opc p1 : Byte) (p2 : U16) (data pre post : Bytes) (b b' : Byte),
    s.busy = false → u.busy = false → data.length ≤ 248 →
    exec (.enc opc p1 p2 data) s = .next t → t.out.drop 1 = pre ++ b :: post → pre ≠ [] → b ≠ b' →
    ∃ c, exec (.decFull (pre ++ b' :: post)) u = .next (done u 0x14#8 [] c)

/-! ## Reports and frames -/

/-- R31: what accepting writes and what completing writes. That exec at a busy block, where R33 has the
request held, answers the same state is the model's (log entry 9, DEDUCED). -/
def Obligations.AcceptAndFinishWrites : Prop :=
  (∀ s : State, s.accept = { s with status := statusWith s 0x20#8, out := [] }) ∧
  (∀ (s : State) (e : ErrCode),
    s.finish e = { s with status := (s.finish e).status, wstate := .idle } ∧
    statusErr (s.finish e).status = e.code ∧ statusDone (s.finish e).status = true ∧
    (s.finish e).busy = false ∧
    statusCrcok (s.finish e).status = statusCrcok s.status ∧
    statusReserved (s.finish e).status = statusReserved s.status) ∧
  (∀ (s : State) (i : Instr), s.busy = true → exec i s = .next s)

/-- R210: the numbers of the codes, which operation reports which, and that no other is written. -/
def Obligations.StatusCodesByOperation : Prop :=
  ([ErrCode.ok, .busTransportError, .wakeFailed, .unexpectedResponseLength, .checksumMismatch,
    .transportShortRead, .badRequest, .unrecognizedLockState].map ErrCode.code =
      [0#4, 1#4, 2#4, 3#4, 4#4, 5#4, 6#4, 7#4]) ∧
  (∀ (i : Instr) (s t : State), s.busy = false → exec i s = .next t →
    statusErr t.status ∈ codesOf i) ∧
  (∀ s t : State, s.busy = true → s.input.rst = false → step s = .next t → t.busy = false →
    statusErr t.status ∈ [0#4, 1#4, 2#4]) ∧
  (∀ s t : State, s.busy = false → execBadRequest s = .next t → statusErr t.status = 6#4)

/-- R211 for the operations of one step: an error leaves `OUT` empty and the report of the code, and no
write but `CRC`, made exactly where the operation came to compute a checksum (R21). -/
def Obligations.ErrorKeepsOnlyChecksum : Prop :=
  ∀ (i : Instr) (s t : State), s.busy = false → exec i s = .next t → statusErr t.status ≠ 0#4 →
    (∃ c b, t = done s b [] c) ∧ statusDone t.status = true ∧ t.busy = false ∧
    statusCrcok t.status = false ∧
    t.crc = match checksummed i with
      | some e => crc16 e
      | none => s.crc

/-- R24 and R25: only WAKE leaves the block busy, every other operation leaves it done. -/
def Obligations.OnlyWakeStaysBusy : Prop :=
  ∀ (i : Instr) (s t : State), s.busy = false → exec i s = .next t →
    (t.busy = true ↔ i = .wake) ∧ (statusDone t.status = true ↔ i ≠ .wake)

/-- R26: `CRCOK` is written 0 at acceptance, and is 1 after exactly the operations that compared a
checksum and found it equal; the steps of a WAKE do not write it. -/
def Obligations.CrcokMeansMatch : Prop :=
  (∀ s : State, statusCrcok s.accept.status = false) ∧
  (∀ (i : Instr) (s t : State), s.busy = false → exec i s = .next t →
    (statusCrcok t.status = true ↔ comparesAndMatches i)) ∧
  (∀ s t : State, s.busy = false → execBadRequest s = .next t → statusCrcok t.status = false) ∧
  (∀ s t : State, s.busy = true → s.input.rst = false → step s = .next t →
    statusCrcok t.status = statusCrcok s.status)

/-- R14 and 90_conflicts.md C12: an operation's result does not depend on what an earlier one left;
`CRC` is either the same in both or kept in both. -/
def Obligations.ResultIndependentOfPast : Prop :=
  ∀ (i : Instr) (s s' t t' : State), s.busy = false → s'.busy = false →
    exec i s = .next t → exec i s' = .next t' →
    t.out = t'.out ∧ t.wstate = t'.wstate ∧ (t.status &&& 0x7F#8) = (t'.status &&& 0x7F#8) ∧
    (t.crc = t'.crc ∨ t.crc = s.crc ∧ t'.crc = s'.crc)

/-- R58: CRC, CHK, ENC and DEC are idempotent. -/
def Obligations.OneStepOperationsIdempotent : Prop :=
  ∀ (i : Instr) (s t : State), i ≠ .wake → s.busy = false → exec i s = .next t → exec i t = .next t

/-- R21: `CRC` holds the last completed checksum computation, from `CRC_INIT`, and every outcome
without one leaves it. -/
def Obligations.CrcHoldsLastComputation : Prop :=
  (∀ (i : Instr) (s t : State), s.busy = false → exec i s = .next t →
    t.crc = match checksummed i with
      | some e => e.foldl crcByte 0x0000#16
      | none => s.crc) ∧
  (∀ s t : State, execBadRequest s = .next t → t.crc = s.crc) ∧
  (∀ s t : State, s.busy = true → s.input.rst = false → step s = .next t → t.crc = s.crc)

/-- The frame of every instruction: the ports (the request port among them), the reserved status bit (R27), and `WBUF` (R30) and
`WSTATE` outside WAKE. -/
def Obligations.InstructionFrame : Prop :=
  ∀ (i : Instr) (s t : State), exec i s = .next t →
    t.port = s.port ∧ t.busLog = s.busLog ∧ t.busOpen = s.busOpen ∧ t.inputs = s.inputs ∧
    statusReserved t.status = statusReserved s.status ∧
    (i ≠ .wake → t.wbuf = s.wbuf ∧ (s.wstate = .idle → t.wstate = .idle))

/-! ## Requests -/

/-- R76: the ten legal descriptors, and that the decoder takes exactly those. -/
def Obligations.ExactlyTenLegalDescriptors : Prop :=
  (∀ b : Byte, legal b = true ↔
    b ∈ [0x00#8, 0x01#8, 0x02#8, 0x03#8, 0x0B#8, 0x23#8, 0x2B#8, 0x1B#8, 0x3B#8, 0x04#8]) ∧
  (∀ r : Request, legal r.req = true ↔ ∃ i, decode r = .ok i)

/-- Words of the opcode table decode to their rows' instructions (R76); a sanity check. -/
def Obligations.TableWordsDecode : Prop :=
  decodeTableWord 8 0x00 = some (.crc []) ∧ decodeTableWord 8 0x02 = some (.enc 0 0 0 []) ∧
  decodeTableWord 8 0x2B = some (.decFixedValXlen [] 0 0) ∧
  decodeTableWord 8 0x1B = some (.decFull []) ∧ decodeTableWord 8 0x04 = some .wake ∧
  decodeTableWord 8 0x13 = none

/-- Decode and encode agree: every instruction with every operand is read back, a well-formed one from
a request that can be offered, and a request is the encoding of what it decodes to but for the fields
the operation ignores. -/
def Obligations.DecodeEncodeAgree : Prop :=
  (∀ i : Instr, decode (encode i) = .ok i ∧ (i.wellFormed = true → (encode i).offerable = true)) ∧
  (∀ (r : Request) (i : Instr), decode r = .ok i →
    (encode i).req = r.req ∧ (r.offerable = true → i.wellFormed = true)) ∧
  (∀ i j : Instr, encode i = encode j → i = j)

/-- R32 (93_implementation_defined.md V6): a field the operation does not use is ignored. -/
def Obligations.UnusedFieldsIgnored : Prop :=
  ∀ (r : Request) (o p n x : Byte) (q : U16) (d : Bytes),
    (reqOp r.req ≠ 2#3 → decode { r with opc := o, p1 := p, p2 := q } = decode r) ∧
    ((reqOp r.req ≠ 3#3 ∨ reqFull r.req = true) → decode { r with nexp := n } = decode r) ∧
    ((reqOp r.req ≠ 3#3 ∨ reqXlen r.req = false) → decode { r with xlenv := x } = decode r) ∧
    (reqOp r.req = 4#3 → decode { r with data := d } = decode r)

/-- R77, at the machine: an accepted request that is not legal completes at once with `BadRequest`
and changes nothing else. That it may be accepted in the step that offers it, and that it leaves the port
with its acceptance, is the model's choice (log entry 4). -/
def Obligations.IllegalDescriptorIsBadRequest : Prop :=
  ∀ (s : State) (r : Request), s.input.rst = false → s.busy = false → s.offered = some r →
    r.offerable = true → legal r.req = false →
    step s = .next { done s.takeInput 0x16#8 [] s.crc with port := none }

/-- R33: while `BUSY = 1` the offered request is held at the port, as the host leaves it; in a step with
`BUSY = 0` it is accepted and leaves the port. That the host's action of a step comes before the
acceptance, and that a request leaves the port with its acceptance, is the model's choice (log entry 4). -/
def Obligations.RequestsHeldWhileBusy : Prop :=
  (∀ s t : State, s.busy = true → s.input.rst = false → step s = .next t → t.port = s.offered) ∧
  (∀ (s : State) (r : Request), s.busy = false → s.input.rst = false → s.offered = some r →
    r.offerable = true →
    ∃ t, step s = .next t ∧ t.port = none ∧ (t.busy = true ∨ statusDone t.status = true))

/-- R33 and R62: once a request is accepted, what the host offers does not affect the operation: at a busy
block another offer, made before the step or in it, changes the request port and nothing else. -/
def Obligations.AcceptedRequestIsFixed : Prop :=
  ∀ (s t : State) (i : Input) (rest : List Input) (held : Option Request) (o : Offer),
    s.busy = true → s.inputs = i :: rest → step s = .next t →
    step { s with port := held, inputs := { i with offer := o } :: rest } =
      .next { t with port := o.apply held }

/-- R24 and R34: with no request offered, no RST and no WAKE in progress a step leaves every state element
as it is, whatever answers or events arrive. -/
def Obligations.IdleStepKeepsState : Prop :=
  ∀ s : State, s.input.rst = false → s.busy = false → s.offered = none →
    step s = .next { s with port := none, inputs := s.inputs.tail }

/-- A step runs the decoded instruction: at an open port with no RST, a step takes the input, takes the
offered request off the port, and is exec of what it decodes to. That a request may be accepted in the
step that brings it is the model's choice (log entry 4). -/
def Obligations.StepRunsDecodedRequest : Prop :=
  ∀ (s : State) (r : Request) (i : Instr), s.input.rst = false → s.busy = false →
    s.offered = some r → r.offerable = true → decode r = .ok i →
    step s = exec i { s with port := none, inputs := s.inputs.tail }

/-- R32 (92_eei_decisions.md D30): a request with more than 256 bytes of `DATA` is turned away by the
model's refusal (log entry 7), in the step that offers it to an open port (log entry 4). -/
def Obligations.OverlongDataIsRefused : Prop :=
  ∀ (s : State) (r : Request), s.input.rst = false → s.busy = false → s.offered = some r →
    256 < r.data.length → step s = .refused .dataNotOfferable

/-! ## The wake sequencer -/

/-- R181, with WAKE's descriptor (R180): accepting WAKE starts the sequencer, from `W_IDLE`. -/
def Obligations.WakeStartsSequencer : Prop :=
  (∀ r : Request, r.req = 0x04#8 → decode r = .ok .wake) ∧
  (∀ s : State, s.busy = false →
    exec .wake s =
      .next { s with status := statusWith s 0x20#8, out := [], wbuf := [], wstate := .pulse }) ∧
  (∀ s : State, Inv s → s.busy = false → s.wstate = .idle)

/-- R182 and R183: in `W_PULSE` the pulse is one transmit of the byte 0x00; `Ok` leads to `W_SETTLE`,
`Err` ends the wake with `BusTransportError`, and with no answer to that transmit the sequencer waits.
The numbering of answers is the model's (log entry 6). -/
def Obligations.PulseTransitions : Prop :=
  ∀ s : State, s.input.rst = false → s.busy = true → s.wstate = .pulse →
    (∀ k, k + 1 = (pulseIssued s).busLog.length → s.input.tx = some (k, .ok) →
      step s = .next { pulseIssued s with busOpen := false, wstate := .settle }) ∧
    (∀ k, k + 1 = (pulseIssued s).busLog.length → s.input.tx = some (k, .err) →
      step s = .next (wakeEnded (pulseIssued s) s.wbuf .busTransportError)) ∧
    (s.input.tx = none → step s = .next (pulseIssued s))

/-- R184: `W_SETTLE` ends on `settle_elapsed` and on nothing else but RST; no receive is issued. -/
def Obligations.SettleTransition : Prop :=
  ∀ s : State, s.input.rst = false → s.busy = true → s.wstate = .settle →
    (s.input.settle = true → step s = .next { s.takeInput with wstate := .recv }) ∧
    (s.input.settle = false → step s = .next s.takeInput)

/-- R185 to R187: in `W_RECV` one receive of 4 bytes; `Err` is `BusTransportError`, fewer than 4 bytes
`WakeFailed` with the bytes in `OUT`, 4 bytes lead to `W_CMP`, and with no answer the sequencer waits.
More than 4 bytes, which R39 excludes, stop the model (log entry 8). -/
def Obligations.ReceiveTransitions : Prop :=
  ∀ s : State, s.input.rst = false → s.busy = true → s.wstate = .recv →
    (∀ k, k + 1 = (receiveIssued s).busLog.length →
      (s.input.rx = some (k, .err) →
        step s = .next (wakeEnded (receiveIssued s) s.wbuf .busTransportError)) ∧
      (∀ b : Bytes, s.input.rx = some (k, .ok b) →
        (b.length < 4 → step s = .next (wakeEnded (receiveIssued s) b .wakeFailed)) ∧
        (b.length = 4 →
          step s = .next { receiveIssued s with wbuf := b, busOpen := false, wstate := .cmp }) ∧
        (4 < b.length → step s = .fault .receiveOverrun))) ∧
    (s.input.rx = none → step s = .next (receiveIssued s))

/-- R188: in `W_CMP` the 4 bytes are compared with `WAKE_ACK`, whatever its value, and the wake ends
with no answer awaited. -/
def Obligations.CompareTransition : Prop :=
  ∀ s : State, s.input.rst = false → s.busy = true → s.wstate = .cmp →
    (s.wbuf = Config.wakeAck.toList →
      step s = .next { wakeEnded s.takeInput s.wbuf .ok with busOpen := s.busOpen }) ∧
    (s.wbuf ≠ Config.wakeAck.toList →
      step s = .next { wakeEnded s.takeInput s.wbuf .wakeFailed with busOpen := s.busOpen })

/-- R190: a step changes `WSTATE` only along a row of the table. -/
def Obligations.NoOtherWakeTransition : Prop :=
  ∀ s t : State, Inv s → step s = .next t → s.wstate ≠ t.wstate →
    (s.input.rst = true ∧ t.wstate = .idle) ∨
    (s.input.rst = false ∧
      ((s.wstate = .idle ∧ t.wstate = .pulse ∧ t.busy = true ∧
          ∃ r, s.offered = some r ∧ r.req = 0x04#8) ∨
       (s.wstate = .pulse ∧ t.wstate = .settle ∧ ∃ k, s.input.tx = some (k, .ok)) ∨
       (s.wstate = .pulse ∧ t.wstate = .idle ∧ statusErr t.status = 1#4 ∧
          ∃ k, s.input.tx = some (k, .err)) ∨
       (s.wstate = .settle ∧ t.wstate = .recv ∧ s.input.settle = true) ∨
       (s.wstate = .recv ∧ t.wstate = .idle ∧ statusErr t.status = 1#4 ∧
          ∃ k, s.input.rx = some (k, .err)) ∨
       (s.wstate = .recv ∧ t.wstate = .idle ∧ statusErr t.status = 2#4 ∧
          ∃ k b, s.input.rx = some (k, .ok b) ∧ b.length < 4 ∧ t.wbuf = b) ∨
       (s.wstate = .recv ∧ t.wstate = .cmp ∧
          ∃ k b, s.input.rx = some (k, .ok b) ∧ b.length = 4 ∧ t.wbuf = b) ∨
       (s.wstate = .cmp ∧ t.wstate = .idle ∧
          statusErr t.status = if s.wbuf = Config.wakeAck.toList then 0#4 else 2#4)))

/-- R189: a wake that ends leaves in `OUT` exactly the bytes received. -/
def Obligations.WakeEndsWithReceivedBytes : Prop :=
  ∀ s t : State, Inv s → s.busy = true → s.input.rst = false → step s = .next t → t.busy = false →
    t.out = t.wbuf ∧ statusDone t.status = true ∧ statusCrcok t.status = false ∧
    ((statusErr t.status = 1#4 ∧ t.out = []) ∨
     (statusErr t.status = 2#4 ∧ ∃ k, s.input.rx = some (k, .ok t.out) ∧ t.out.length < 4) ∨
     (s.wstate = .cmp ∧ t.out = s.wbuf ∧ t.out.length = 4 ∧
        statusErr t.status = if t.out = Config.wakeAck.toList then 0#4 else 2#4))

/-- A WAKE that the transport and the delay port answer ends, however long each wait is (R191: the
premise is on the environment), with the bus traffic of R182 and R185 and the outcome of R188. The list of
inputs, the counting of steps, the step of issue and the numbering of answers are the model's choice
(log entries 3, 5 and 6). -/
def Obligations.AnsweredWakeEnds : Prop :=
  ∀ (s : State) (r : Request) (b : Bytes) (n1 n2 n3 : Nat),
    s.busy = false → s.wstate = .idle → s.busOpen = false →
    s.port = some r → r.req = 0x04#8 → r.offerable = true → b.length = 4 →
    s.inputs =
      [Input.quiet] ++ List.replicate n1 Input.quiet ++
      [{ Input.quiet with tx := some (s.busLog.length, .ok) }] ++ List.replicate n2 Input.quiet ++
      [{ Input.quiet with settle := true }] ++ List.replicate n3 Input.quiet ++
      [{ Input.quiet with rx := some (s.busLog.length + 1, .ok b) }] ++ [Input.quiet] →
    Reaches (n1 + n2 + n3 + 5) s
      { s with
        status := statusWith s (if b = Config.wakeAck.toList then 0x10#8 else 0x12#8)
        out := b, wbuf := b, wstate := .idle, port := none, inputs := []
        busLog := s.busLog ++ [.transmit [0x00#8], .receive 4] }

/-- R191: with no answer, no event and no RST the block stays busy in the same state for ever. That nothing
arrives once the list of inputs is exhausted is the model's choice (log entry 3). -/
def Obligations.UnansweredWakeHangs : Prop :=
  ∀ (k : Nat) (s : State), s.busy = true → s.inputs = [] →
    s.wstate = .pulse ∨ s.wstate = .settle ∨ s.wstate = .recv →
    ∃ t, Reaches k s t ∧ t.busy = true ∧ t.wstate = s.wstate ∧ t.out = s.out ∧ t.wbuf = s.wbuf

/-- The bus is used by WAKE alone (R39): a step adds to the traffic one pulse in `W_PULSE` or one
receive of 4 bytes in `W_RECV`, and nothing else. -/
def Obligations.BusTrafficOnlyInWake : Prop :=
  ∀ s t : State, step s = .next t →
    t.busLog = s.busLog ∨
    (s.busy = true ∧ s.busOpen = false ∧
      ((s.wstate = .pulse ∧ t.busLog = s.busLog ++ [.transmit [0x00#8]]) ∨
       (s.wstate = .recv ∧ t.busLog = s.busLog ++ [.receive 4])))

/-- R241: an answer to a bus request other than the awaited one is discarded, in every state: the step is
the same without it. Among them is the answer to a request abandoned by RST, which the block awaits
neither while it is not busy (second clause) nor in a later wake. The numbering is the model's
(log entry 6). -/
def Obligations.LateAnswerIsDiscarded : Prop :=
  (∀ (s : State) (i j : Input) (rest : List Input), s.inputs = i :: rest →
    j = { i with tx := none, rx := none } →
    (∀ k a, i.tx = some (k, a) → s.busy = true → s.wstate = .pulse →
      k + 1 ≠ (pulseIssued s).busLog.length) →
    (∀ k a, i.rx = some (k, a) → s.busy = true → s.wstate = .recv →
      k + 1 ≠ (receiveIssued s).busLog.length) →
    step s = step { s with inputs := j :: rest }) ∧
  (∀ (s t : State) (i : Input) (rest : List Input) (tx : Option (Nat × TxResult))
    (rx : Option (Nat × RxResult)), s.input.rst = true → step s = .next t → t.inputs = i :: rest →
    step t = step { t with inputs := { i with tx := tx, rx := rx } :: rest })

/-! ## Reset and the run as a whole -/

/-- R42: the values after reset, as the host reads them, and the hidden buffer. -/
def Obligations.ResetValues : Prop :=
  State.reset.hostView = { crc := 0x0000#16, status := 0x00#8, out := [], wstate := 0#3 } ∧
  State.reset.wbuf = []

/-- R41 and R240: RST in any state sets every element to its reset value in one step, and the request
offered next is accepted, be it one offered to the empty port or one that stands there still. That a
request at the port outlasts RST is the model's choice (log entry 4). -/
def Obligations.RstResetsEveryElement : Prop :=
  ∀ s : State, s.input.rst = true →
    ∃ t, step s = .next t ∧
      t.crc = 0x0000#16 ∧ t.status = 0x00#8 ∧ t.out = [] ∧ t.wstate = .idle ∧ t.wbuf = [] ∧
      t.busy = false ∧ t.busOpen = false ∧ t.port = s.offered ∧
      ∀ r, t.offered = some r → t.input.rst = false → r.offerable = true →
        ∃ u, step t = .next u ∧ u.port = none ∧ (u.busy = true ∨ statusDone u.status = true)

/-- The invariant holds after reset. -/
def Obligations.ResetMeetsInvariant : Prop := Inv State.reset

/-- Every step keeps the invariant (R25, R27, R28, R29, R30, R43, R210, R251), whatever the
environment does. -/
def Obligations.StepKeepsInvariant : Prop :=
  ∀ s t : State, Inv s → step s = .next t → Inv t

/-- With an environment the ports admit (R32, R39) no step stops, and the next state is again one. -/
def Obligations.AdmissibleRunNeverStops : Prop :=
  ∀ s : State, Admissible s → ∃ t, step s = .next t ∧ Admissible t

/-! ## The host's obligations -/

/-- R245: a host that breaks no obligation receives only after it transmitted a command and its settle
delay elapsed since. The checker is the model's (log entry 14). -/
def Obligations.HostReceivesAfterSettle : Prop :=
  ∀ (needs : AwakeCommands) (acts : List HostAct) (v : HostView) (n : Nat) (r : RxResult) (p : HostPhase),
    HostPhase.run needs .ready (acts ++ [.receive v n r]) = some p →
    ∃ (before mid last : List HostAct) (v' : HostView) (f : Bytes),
      acts = before ++ [.transmit v' f .ok] ++ mid ++ [.settle] ++ last ∧
      ∀ a ∈ mid ++ last, ∀ w g y m z, a ≠ .transmit w g y ∧ a ≠ .receive w m z

/-- R243: a host that breaks no obligation builds a command that needs an awake chip only after a WAKE that
ended `OK`, with nothing but CRC, CHK and DEC requests since. It holds whichever commands need
it (log entry 18), and the checker is the model's (log entry 14). -/
def Obligations.HostWakesBeforeAwakeCommand : Prop :=
  ∀ (needs : AwakeCommands) (acts : List HostAct) (v : HostView) (p : HostPhase) (opc p1 : Byte)
    (p2 : U16) (data : Bytes),
    HostPhase.run needs .ready (acts ++ [.completed (.enc opc p1 p2 data) v]) = some p →
    needs opc p1 p2 data = true →
    ∃ (before mid : List HostAct) (w : HostView),
      acts = before ++ [.completed .wake w] ++ mid ∧
      statusErr w.status = 0#4 ∧ statusDone w.status = true ∧
      ∀ a ∈ mid, ∃ i u, a = .completed i u ∧ i ≠ .wake ∧ ∀ o q r e, i ≠ .enc o q r e

/-- R241 and R249: after a transaction is abandoned a host transmits again only once a WAKE has ended
`OK`. The checker is the model's (log entry 14). -/
def Obligations.HostWakesBeforeNextCommand : Prop :=
  ∀ (needs : AwakeCommands) (acts : List HostAct) (v : HostView) (f : Bytes) (y : TxResult) (p : HostPhase),
    HostPhase.run needs .mustWake (acts ++ [.transmit v f y]) = some p →
    ∃ w, HostAct.completed .wake w ∈ acts ∧ statusErr w.status = 0#4 ∧ statusDone w.status = true

end
end

