-- ==== Sys2Proof/Laws/Operands.lean ====
section
/-! SUPPORT. Slices, wire order and trailing checksums of byte sequences. -/

namespace Sys2Proof.Machine

@[simp] theorem slice_zero (s : Bytes) (j : Nat) : slice s 0 j = s.take j := by simp [slice]

theorem slice_length (s : Bytes) (i j : Nat) : (slice s i j).length = min (j - i) (s.length - i) := by
  simp [slice]

@[simp] theorem wireBytes_length (v : U16) : (wireBytes v).length = 2 := rfl

theorem wireNumber_wireBytes (v : U16) : wireNumber (lo8 v) (hi8 v) = v := by
  apply BitVec.eq_of_toNat_eq
  have := v.isLt
  simp [wireNumber, lo8, hi8, Nat.shiftRight_eq_div_pow]
  omega

/-- The bytes before the last two. -/
theorem body_append (m : Bytes) (a b : Byte) : body (m ++ [a, b]) = m := by simp [body]

/-- The last two bytes. -/
theorem trailer_append (m : Bytes) (a b : Byte) : trailer (m ++ [a, b]) = [a, b] := by
  simp [trailer, slice]

theorem body_trailer (s : Bytes) : body s ++ trailer s = s := by
  simp only [body, trailer, slice, List.drop_zero, Nat.sub_zero]
  rw [List.take_of_length_le (l := s.drop (s.length - 2)) (by simp)]
  exact List.take_append_drop _ _

theorem trailer_length (s : Bytes) : (trailer s).length = min 2 s.length := by
  simp [trailer, slice]; omega

end Sys2Proof.Machine
end

