-- ==== Sys2Proof/Laws/Checksum.lean ====
section
/-! SUPPORT. The checksum over sequences built piece by piece, and validation of a sequence given with its
last two bytes apart. -/

namespace Sys2Proof.Machine

theorem crcByte_bits (r : U16) (b : Byte) :
    crcByte r b =
      crcBit (crcBit (crcBit (crcBit (crcBit (crcBit (crcBit (crcBit r (b.getLsbD 0)) (b.getLsbD 1))
        (b.getLsbD 2)) (b.getLsbD 3)) (b.getLsbD 4)) (b.getLsbD 5)) (b.getLsbD 6)) (b.getLsbD 7) := rfl

theorem crc16_append (s t : Bytes) : crc16 (s ++ t) = t.foldl crcByte (crc16 s) := by simp [crc16]

/-- Bit steps on exclusive-ors are the exclusive-ors of the bit steps. -/
theorem crcBit_xor (r r' : U16) (d d' : Bool) :
    crcBit (r ^^^ r') (d ^^ d') = crcBit r d ^^^ crcBit r' d' := by
  have shift : (r ^^^ r') <<< 1 = (r <<< 1) ^^^ (r' <<< 1) := by ext i hi; simp; grind
  simp only [crcBit, BitVec.getLsbD_xor, shift]
  cases d <;> cases d' <;> cases r.getLsbD 15 <;> cases r'.getLsbD 15 <;> simp <;> ext i hi <;> simp <;>
    (try cases (Config.crcPoly)[i]) <;> simp [Bool.xor_comm]

/-- Validation needs a message byte before the trailing two. -/
theorem valid_append (m : Bytes) (a b : Byte) :
    valid (m ++ [a, b]) = (decide (m ≠ []) && [a, b] == crcBytes (crc16 m)) := by
  cases m with
  | nil => simp [valid]
  | cons x xs =>
    have h : ¬ (x :: xs ++ [a, b]).length < 3 := by simp
    rw [valid, if_neg h, trailer_append, body_append]
    simp

theorem valid_of_length {s : Bytes} (h : 3 ≤ s.length) :
    valid s = (trailer s == crcBytes (crc16 (body s))) := by
  simp [valid, show ¬ s.length < 3 by omega]

end Sys2Proof.Machine
end

