-- ==== Sys2Proof/Laws/PerInstr.lean ====
section
/-! SUPPORT. Per-instruction facts about the encoding: the encoder gives each instruction the descriptor
of its row in spec/opcode_table.json, which is legal, and a request that can be offered exactly when
the instruction is well formed. -/

namespace Sys2Proof.Laws.EncodingTable

/-- The `match` value of the instruction's row in spec/opcode_table.json. -/
def descriptor : Instr → Byte
  | .crc _                 => 0x00#8
  | .chk _                 => 0x01#8
  | .enc _ _ _ _           => 0x02#8
  | .decFixed _ _          => 0x03#8
  | .decFixedVal _ _       => 0x0B#8
  | .decFixedXlen _ _ _    => 0x23#8
  | .decFixedValXlen _ _ _ => 0x2B#8
  | .decFull _             => 0x1B#8
  | .decFullXlen _ _       => 0x3B#8
  | .wake                  => 0x04#8

def Statement (i : Instr) : Prop :=
  (encode i).req = descriptor i ∧ legal (encode i).req = true ∧
    ((encode i).offerable = i.wellFormed)

theorem statement_of {i : Instr} {b : Byte} (h : (encode i).req = b) (hl : legal b = true)
    (hw : (encode i).offerable = i.wellFormed) (hd : descriptor i = b := by rfl) : Statement i :=
  ⟨h.trans hd.symm, h ▸ hl, hw⟩

theorem crc (data : Bytes) : Statement (.crc data) :=
  statement_of rfl (by decide : legal 0x00#8 = true) rfl
theorem chk (data : Bytes) : Statement (.chk data) :=
  statement_of rfl (by decide : legal 0x01#8 = true) rfl
theorem enc (opc p1 : Byte) (p2 : U16) (data : Bytes) : Statement (.enc opc p1 p2 data) :=
  statement_of rfl (by decide : legal 0x02#8 = true) rfl
theorem decFixed (data : Bytes) (n : Byte) : Statement (.decFixed data n) :=
  statement_of rfl (by decide : legal 0x03#8 = true) rfl
theorem decFixedVal (data : Bytes) (n : Byte) : Statement (.decFixedVal data n) :=
  statement_of rfl (by decide : legal 0x0B#8 = true) rfl
theorem decFixedXlen (data : Bytes) (n x : Byte) : Statement (.decFixedXlen data n x) :=
  statement_of rfl (by decide : legal 0x23#8 = true) rfl
theorem decFixedValXlen (data : Bytes) (n x : Byte) : Statement (.decFixedValXlen data n x) :=
  statement_of rfl (by decide : legal 0x2B#8 = true) rfl
theorem decFull (data : Bytes) : Statement (.decFull data) :=
  statement_of rfl (by decide : legal 0x1B#8 = true) rfl
theorem decFullXlen (data : Bytes) (x : Byte) : Statement (.decFullXlen data x) :=
  statement_of rfl (by decide : legal 0x3B#8 = true) rfl
theorem wake : Statement .wake :=
  statement_of rfl (by decide : legal 0x04#8 = true) rfl

end Sys2Proof.Laws.EncodingTable
end

