-- ==== Sys2Proof/Laws/Decode.lean ====
section
/-! SUPPORT. The descriptor bytes the encoder builds from their fields, and the fields the decoder reads
from a descriptor byte. -/

namespace Sys2Proof

/-! One lemma per row of the opcode table. -/

@[simp] theorem reqByte_crc : reqByte 0#3 false false false = 0x00#8 := rfl
@[simp] theorem reqByte_chk : reqByte 1#3 false false false = 0x01#8 := rfl
@[simp] theorem reqByte_enc : reqByte 2#3 false false false = 0x02#8 := rfl
@[simp] theorem reqByte_decFixed : reqByte 3#3 false false false = 0x03#8 := rfl
@[simp] theorem reqByte_decFixedVal : reqByte 3#3 true false false = 0x0B#8 := rfl
@[simp] theorem reqByte_decFixedXlen : reqByte 3#3 false false true = 0x23#8 := rfl
@[simp] theorem reqByte_decFixedValXlen : reqByte 3#3 true false true = 0x2B#8 := rfl
@[simp] theorem reqByte_decFull : reqByte 3#3 true true false = 0x1B#8 := rfl
@[simp] theorem reqByte_decFullXlen : reqByte 3#3 true true true = 0x3B#8 := rfl
@[simp] theorem reqByte_wake : reqByte 4#3 false false false = 0x04#8 := rfl

/-- A descriptor is its five fields. -/
theorem reqByte_fields (b : Byte) (h : reqReserved b = 0#2) :
    reqByte (reqOp b) (reqVal b) (reqFull b) (reqXlen b) = b := by
  revert b; decide +kernel

/-- The legal descriptors, in the decoder's own terms. -/
theorem legal_iff_fields (b : Byte) : legal b = true ↔
    reqReserved b = 0#2 ∧
      (((reqOp b).toNat ∈ [0, 1, 2, 4] ∧ (reqVal b || reqFull b || reqXlen b) = false) ∨
        ((reqOp b).toNat = 3 ∧ (reqFull b = true → reqVal b = true))) := by
  revert b; decide +kernel

end Sys2Proof
end

