-- ==== Sys2Proof/Laws/Flags.lean ====
section
/-! SUPPORT. What accepting and completing a request leave in each field of `STATUS`, and the whole byte
as 95_test_vectors.md writes it (0x20 busy, 0x10 done, 0x50 done with a checksum match). -/

namespace Sys2Proof.Machine

/-! Each write of `STATUS`, bit by bit. -/

theorem getLsbD_writeBits (mask : Byte) (b : Bool) (st : Byte) (i : Nat) (h : i < 8) :
    (writeBits mask b st).getLsbD i = if mask.getLsbD i then b else st.getLsbD i := by
  have h' : (~~~mask).getLsbD i = !mask.getLsbD i := by rw [BitVec.getLsbD_not]; simp [h]
  cases b <;> cases hm : mask.getLsbD i <;>
    simp only [writeBits, Bool.false_eq_true, if_true, if_false, BitVec.getLsbD_or, BitVec.getLsbD_and, h', hm] <;>
    simp

theorem getLsbD_setErr (e : ErrCode) (st : Byte) (i : Nat) (h : i < 8) :
    (setErr e st).getLsbD i = if i < 4 then e.code.getLsbD i else st.getLsbD i := by
  interval_cases i <;> simp [setErr]

theorem getLsbD_accept (st : Byte) (i : Nat) (h : i < 8) :
    (acceptStatus st).getLsbD i = if i = 7 then st.getLsbD 7 else i == 5 := by
  simp only [acceptStatus, setCrcok, setDone, setBusy, getLsbD_writeBits _ _ _ i h, getLsbD_setErr _ _ i h]
  interval_cases i <;> simp [ErrCode.code]

theorem getLsbD_finish (e : ErrCode) (st : Byte) (i : Nat) (h : i < 8) :
    (finishStatus e st).getLsbD i =
      if i < 4 then e.code.getLsbD i else if i = 4 then true else if i = 5 then false else st.getLsbD i := by
  simp only [finishStatus, setDone, setBusy, getLsbD_writeBits _ _ _ i h, getLsbD_setErr _ _ i h]
  interval_cases i <;> simp

theorem getLsbD_setCrcok (b : Bool) (st : Byte) (i : Nat) (h : i < 8) :
    (setCrcok b st).getLsbD i = if i = 6 then b else st.getLsbD i := by
  rw [setCrcok, getLsbD_writeBits _ _ _ i h]
  interval_cases i <;> simp

/-- `ERR` is bits 3:0. -/
theorem statusErr_of_bits {st : Byte} {e : BitVec 4} (h : ∀ i, i < 4 → st.getLsbD i = e.getLsbD i) :
    statusErr st = e :=
  BitVec.eq_of_getLsbD_eq fun i hi => by rw [statusErr, BitVec.getLsbD_extractLsb', Nat.zero_add, h i hi]; simp [hi]

/-! The fields after accepting and after completing. -/

theorem statusBusy_accept (st : Byte) : statusBusy (acceptStatus st) = true := by
  rw [statusBusy, getLsbD_accept _ _ (by omega)]; rfl
theorem statusDone_accept (st : Byte) : statusDone (acceptStatus st) = false := by
  rw [statusDone, getLsbD_accept _ _ (by omega)]; rfl
theorem statusErr_accept (st : Byte) : statusErr (acceptStatus st) = 0#4 :=
  statusErr_of_bits fun i hi => by rw [getLsbD_accept _ _ (by omega)]; interval_cases i <;> rfl
theorem statusCrcok_accept (st : Byte) : statusCrcok (acceptStatus st) = false := by
  rw [statusCrcok, getLsbD_accept _ _ (by omega)]; rfl
theorem statusReserved_accept (st : Byte) : statusReserved (acceptStatus st) = statusReserved st := by
  rw [statusReserved, getLsbD_accept _ _ (by omega)]; rfl

theorem statusBusy_finish (e : ErrCode) (st : Byte) : statusBusy (finishStatus e st) = false := by
  rw [statusBusy, getLsbD_finish _ _ _ (by omega)]; rfl
theorem statusDone_finish (e : ErrCode) (st : Byte) : statusDone (finishStatus e st) = true := by
  rw [statusDone, getLsbD_finish _ _ _ (by omega)]; rfl
theorem statusErr_finish (e : ErrCode) (st : Byte) : statusErr (finishStatus e st) = e.code :=
  statusErr_of_bits fun i hi => by rw [getLsbD_finish _ _ _ (by omega)]; simp [hi]
theorem statusCrcok_finish (e : ErrCode) (st : Byte) :
    statusCrcok (finishStatus e st) = statusCrcok st := by rw [statusCrcok, getLsbD_finish _ _ _ (by omega)]; rfl
theorem statusReserved_finish (e : ErrCode) (st : Byte) :
    statusReserved (finishStatus e st) = statusReserved st := by rw [statusReserved, getLsbD_finish _ _ _ (by omega)]; rfl

theorem statusCrcok_setCrcok (b : Bool) (st : Byte) : statusCrcok (setCrcok b st) = b := by
  rw [statusCrcok, getLsbD_setCrcok _ _ _ (by omega)]; rfl
theorem statusReserved_setCrcok (b : Bool) (st : Byte) :
    statusReserved (setCrcok b st) = statusReserved st := by rw [statusReserved, getLsbD_setCrcok _ _ _ (by omega)]; rfl
theorem statusBusy_setBusy (b : Bool) (st : Byte) : statusBusy (setBusy b st) = b := by
  rw [statusBusy, setBusy, getLsbD_writeBits _ _ _ _ (by omega)]; rfl

/-- `accept` leaves `BUSY` set, the reserved bit as it was, and nothing else. -/
theorem acceptStatus_value (st : Byte) : acceptStatus st = (st &&& 0x80#8) ||| 0x20#8 :=
  BitVec.eq_of_getLsbD_eq fun i hi => by rw [getLsbD_accept _ _ hi]; interval_cases i <;> simp

/-- A completion with no checksum match: `DONE` and the code. -/
theorem finish_accept_value (e : ErrCode) (st : Byte) :
    finishStatus e (acceptStatus st) = (st &&& 0x80#8) ||| 0x10#8 ||| e.code.setWidth 8 :=
  BitVec.eq_of_getLsbD_eq fun i hi => by
    rw [getLsbD_finish _ _ _ hi, getLsbD_accept _ _ hi]; interval_cases i <;> simp

/-- A completion after a checksum comparison. -/
theorem finish_setCrcok_accept_value (b : Bool) (st : Byte) :
    finishStatus .ok (setCrcok b (acceptStatus st)) =
      (st &&& 0x80#8) ||| (if b then 0x50#8 else 0x10#8) :=
  BitVec.eq_of_getLsbD_eq fun i hi => by
    rw [getLsbD_finish _ _ _ hi, getLsbD_setCrcok _ _ _ hi, getLsbD_accept _ _ hi]
    cases b <;> interval_cases i <;> simp [ErrCode.code]

/-! `STATUS` written as a value over the reserved bit. -/

theorem getLsbD_masked (st b : Byte) (i : Nat) (h : i < 7) :
    ((st &&& 0x80#8) ||| b).getLsbD i = b.getLsbD i := by
  interval_cases i <;> simp

theorem statusErr_masked (st b : Byte) : statusErr ((st &&& 0x80#8) ||| b) = b.extractLsb' 0 4 := by
  apply BitVec.eq_of_getLsbD_eq
  intro i hi
  simp only [statusErr, BitVec.getLsbD_extractLsb', Nat.zero_add, hi, decide_true, Bool.true_and]
  exact getLsbD_masked st b i (by omega)

theorem statusDone_masked (st b : Byte) : statusDone ((st &&& 0x80#8) ||| b) = b.getLsbD 4 :=
  getLsbD_masked st b 4 (by omega)

theorem statusBusy_masked (st b : Byte) : statusBusy ((st &&& 0x80#8) ||| b) = b.getLsbD 5 :=
  getLsbD_masked st b 5 (by omega)

theorem statusCrcok_masked (st b : Byte) : statusCrcok ((st &&& 0x80#8) ||| b) = b.getLsbD 6 :=
  getLsbD_masked st b 6 (by omega)

end Sys2Proof.Machine
end

