-- ==== Sys2Proof/Laws/State.lean ====
section
/-! SUPPORT. One lemma per field per update of the state, each true by rfl, so that no later proof unfolds
a record update. -/

namespace Sys2Proof.Machine

@[simp] theorem State.accept_crc (s : State) : (s.accept).crc = s.crc := rfl
@[simp] theorem State.accept_status (s : State) : (s.accept).status = acceptStatus s.status := rfl
@[simp] theorem State.accept_out (s : State) : (s.accept).out = [] := rfl
@[simp] theorem State.accept_wstate (s : State) : (s.accept).wstate = s.wstate := rfl
@[simp] theorem State.accept_wbuf (s : State) : (s.accept).wbuf = s.wbuf := rfl
@[simp] theorem State.accept_port (s : State) : (s.accept).port = s.port := rfl
@[simp] theorem State.accept_busLog (s : State) : (s.accept).busLog = s.busLog := rfl
@[simp] theorem State.accept_busOpen (s : State) : (s.accept).busOpen = s.busOpen := rfl
@[simp] theorem State.accept_inputs (s : State) : (s.accept).inputs = s.inputs := rfl

@[simp] theorem State.finish_crc (s : State) (e : ErrCode) : (s.finish e).crc = s.crc := rfl
@[simp] theorem State.finish_status (s : State) (e : ErrCode) : (s.finish e).status = finishStatus e s.status := rfl
@[simp] theorem State.finish_out (s : State) (e : ErrCode) : (s.finish e).out = s.out := rfl
@[simp] theorem State.finish_wstate (s : State) (e : ErrCode) : (s.finish e).wstate = .idle := rfl
@[simp] theorem State.finish_wbuf (s : State) (e : ErrCode) : (s.finish e).wbuf = s.wbuf := rfl
@[simp] theorem State.finish_port (s : State) (e : ErrCode) : (s.finish e).port = s.port := rfl
@[simp] theorem State.finish_busLog (s : State) (e : ErrCode) : (s.finish e).busLog = s.busLog := rfl
@[simp] theorem State.finish_busOpen (s : State) (e : ErrCode) : (s.finish e).busOpen = s.busOpen := rfl
@[simp] theorem State.finish_inputs (s : State) (e : ErrCode) : (s.finish e).inputs = s.inputs := rfl

@[simp] theorem State.deliver_crc (s : State) (b : Bytes) : (s.deliver b).crc = s.crc := rfl
@[simp] theorem State.deliver_status (s : State) (b : Bytes) : (s.deliver b).status = finishStatus .ok s.status := rfl
@[simp] theorem State.deliver_out (s : State) (b : Bytes) : (s.deliver b).out = b := rfl
@[simp] theorem State.deliver_wstate (s : State) (b : Bytes) : (s.deliver b).wstate = .idle := rfl
@[simp] theorem State.deliver_wbuf (s : State) (b : Bytes) : (s.deliver b).wbuf = s.wbuf := rfl
@[simp] theorem State.deliver_port (s : State) (b : Bytes) : (s.deliver b).port = s.port := rfl
@[simp] theorem State.deliver_busLog (s : State) (b : Bytes) : (s.deliver b).busLog = s.busLog := rfl
@[simp] theorem State.deliver_busOpen (s : State) (b : Bytes) : (s.deliver b).busOpen = s.busOpen := rfl
@[simp] theorem State.deliver_inputs (s : State) (b : Bytes) : (s.deliver b).inputs = s.inputs := rfl

@[simp] theorem State.assertReset_crc (s : State) : (s.assertReset).crc = 0x0000#16 := rfl
@[simp] theorem State.assertReset_status (s : State) : (s.assertReset).status = 0x00#8 := rfl
@[simp] theorem State.assertReset_out (s : State) : (s.assertReset).out = [] := rfl
@[simp] theorem State.assertReset_wstate (s : State) : (s.assertReset).wstate = .idle := rfl
@[simp] theorem State.assertReset_wbuf (s : State) : (s.assertReset).wbuf = [] := rfl
@[simp] theorem State.assertReset_port (s : State) : (s.assertReset).port = s.port := rfl
@[simp] theorem State.assertReset_busLog (s : State) : (s.assertReset).busLog = s.busLog := rfl
@[simp] theorem State.assertReset_busOpen (s : State) : (s.assertReset).busOpen = false := rfl
@[simp] theorem State.assertReset_inputs (s : State) : (s.assertReset).inputs = s.inputs := rfl

@[simp] theorem State.takeInput_crc (s : State) : (s.takeInput).crc = s.crc := rfl
@[simp] theorem State.takeInput_status (s : State) : (s.takeInput).status = s.status := rfl
@[simp] theorem State.takeInput_out (s : State) : (s.takeInput).out = s.out := rfl
@[simp] theorem State.takeInput_wstate (s : State) : (s.takeInput).wstate = s.wstate := rfl
@[simp] theorem State.takeInput_wbuf (s : State) : (s.takeInput).wbuf = s.wbuf := rfl
@[simp] theorem State.takeInput_port (s : State) : (s.takeInput).port = s.offered := rfl
@[simp] theorem State.takeInput_busLog (s : State) : (s.takeInput).busLog = s.busLog := rfl
@[simp] theorem State.takeInput_busOpen (s : State) : (s.takeInput).busOpen = s.busOpen := rfl
@[simp] theorem State.takeInput_inputs (s : State) : (s.takeInput).inputs = s.inputs.tail := rfl

@[simp] theorem State.takeOffer_crc (s : State) : (s.takeOffer).crc = s.crc := rfl
@[simp] theorem State.takeOffer_status (s : State) : (s.takeOffer).status = s.status := rfl
@[simp] theorem State.takeOffer_out (s : State) : (s.takeOffer).out = s.out := rfl
@[simp] theorem State.takeOffer_wstate (s : State) : (s.takeOffer).wstate = s.wstate := rfl
@[simp] theorem State.takeOffer_wbuf (s : State) : (s.takeOffer).wbuf = s.wbuf := rfl
@[simp] theorem State.takeOffer_port (s : State) : (s.takeOffer).port = none := rfl
@[simp] theorem State.takeOffer_busLog (s : State) : (s.takeOffer).busLog = s.busLog := rfl
@[simp] theorem State.takeOffer_busOpen (s : State) : (s.takeOffer).busOpen = s.busOpen := rfl
@[simp] theorem State.takeOffer_inputs (s : State) : (s.takeOffer).inputs = s.inputs := rfl

@[simp] theorem State.closeBus_crc (s : State) : (s.closeBus).crc = s.crc := rfl
@[simp] theorem State.closeBus_status (s : State) : (s.closeBus).status = s.status := rfl
@[simp] theorem State.closeBus_out (s : State) : (s.closeBus).out = s.out := rfl
@[simp] theorem State.closeBus_wstate (s : State) : (s.closeBus).wstate = s.wstate := rfl
@[simp] theorem State.closeBus_wbuf (s : State) : (s.closeBus).wbuf = s.wbuf := rfl
@[simp] theorem State.closeBus_port (s : State) : (s.closeBus).port = s.port := rfl
@[simp] theorem State.closeBus_busLog (s : State) : (s.closeBus).busLog = s.busLog := rfl
@[simp] theorem State.closeBus_busOpen (s : State) : (s.closeBus).busOpen = false := rfl
@[simp] theorem State.closeBus_inputs (s : State) : (s.closeBus).inputs = s.inputs := rfl

@[simp] theorem State.endWake_crc (s : State) (e : ErrCode) : (s.endWake e).crc = s.crc := rfl
@[simp] theorem State.endWake_status (s : State) (e : ErrCode) : (s.endWake e).status = finishStatus e s.status := rfl
@[simp] theorem State.endWake_out (s : State) (e : ErrCode) : (s.endWake e).out = s.wbuf := rfl
@[simp] theorem State.endWake_wstate (s : State) (e : ErrCode) : (s.endWake e).wstate = .idle := rfl
@[simp] theorem State.endWake_wbuf (s : State) (e : ErrCode) : (s.endWake e).wbuf = s.wbuf := rfl
@[simp] theorem State.endWake_port (s : State) (e : ErrCode) : (s.endWake e).port = s.port := rfl
@[simp] theorem State.endWake_busLog (s : State) (e : ErrCode) : (s.endWake e).busLog = s.busLog := rfl
@[simp] theorem State.endWake_busOpen (s : State) (e : ErrCode) : (s.endWake e).busOpen = s.busOpen := rfl
@[simp] theorem State.endWake_inputs (s : State) (e : ErrCode) : (s.endWake e).inputs = s.inputs := rfl

@[simp] theorem wakeOp_crc (s : State) : (wakeOp s).crc = s.crc := rfl
@[simp] theorem wakeOp_status (s : State) : (wakeOp s).status = s.status := rfl
@[simp] theorem wakeOp_out (s : State) : (wakeOp s).out = s.out := rfl
@[simp] theorem wakeOp_wstate (s : State) : (wakeOp s).wstate = .pulse := rfl
@[simp] theorem wakeOp_wbuf (s : State) : (wakeOp s).wbuf = [] := rfl
@[simp] theorem wakeOp_port (s : State) : (wakeOp s).port = s.port := rfl
@[simp] theorem wakeOp_busLog (s : State) : (wakeOp s).busLog = s.busLog := rfl
@[simp] theorem wakeOp_busOpen (s : State) : (wakeOp s).busOpen = s.busOpen := rfl
@[simp] theorem wakeOp_inputs (s : State) : (wakeOp s).inputs = s.inputs := rfl

@[simp] theorem State.issue_crc (s : State) (c : BusCall) : (s.issue c).crc = s.crc := by
  unfold State.issue; split <;> rfl
@[simp] theorem State.issue_status (s : State) (c : BusCall) : (s.issue c).status = s.status := by
  unfold State.issue; split <;> rfl
@[simp] theorem State.issue_out (s : State) (c : BusCall) : (s.issue c).out = s.out := by
  unfold State.issue; split <;> rfl
@[simp] theorem State.issue_wstate (s : State) (c : BusCall) : (s.issue c).wstate = s.wstate := by
  unfold State.issue; split <;> rfl
@[simp] theorem State.issue_wbuf (s : State) (c : BusCall) : (s.issue c).wbuf = s.wbuf := by
  unfold State.issue; split <;> rfl
@[simp] theorem State.issue_port (s : State) (c : BusCall) : (s.issue c).port = s.port := by
  unfold State.issue; split <;> rfl
@[simp] theorem State.issue_busLog (s : State) (c : BusCall) : (s.issue c).busLog = if s.busOpen then s.busLog else s.busLog ++ [c] := by
  unfold State.issue; split <;> rfl
@[simp] theorem State.issue_busOpen (s : State) (c : BusCall) : (s.issue c).busOpen = true := by
  unfold State.issue; split <;> simp_all
@[simp] theorem State.issue_inputs (s : State) (c : BusCall) : (s.issue c).inputs = s.inputs := by
  unfold State.issue; split <;> rfl

@[simp] theorem Offer.apply_keep (p : Option Request) : Offer.keep.apply p = p := rfl
@[simp] theorem Offer.apply_put (r : Request) (p : Option Request) : (Offer.put r).apply p = some r := rfl
@[simp] theorem Offer.apply_withdraw (p : Option Request) : Offer.withdraw.apply p = none := rfl

@[simp] theorem State.accept_busy (s : State) : s.accept.busy = statusBusy (acceptStatus s.status) := rfl
@[simp] theorem State.finish_busy (s : State) (e : ErrCode) :
    (s.finish e).busy = statusBusy (finishStatus e s.status) := rfl
@[simp] theorem State.takeInput_busy (s : State) : s.takeInput.busy = s.busy := rfl
@[simp] theorem State.takeOffer_busy (s : State) : s.takeOffer.busy = s.busy := rfl
@[simp] theorem wakeOp_busy (s : State) : (wakeOp s).busy = s.busy := rfl

end Sys2Proof.Machine
end

