-- ==== Sys2Proof/Laws/Exec.lean ====
section
/-! SUPPORT. What each operation can do, said once: every meaning answers a next state, from an open port
it is the operation on the accepted state, and what the decoder's shared parts leave. -/

namespace Sys2Proof.Machine

theorem request_open {s : State} (op : State → State) (h : s.busy = false) :
    s.request op = .next (op s.accept) := by simp [State.request, h]

theorem request_held {s : State} (op : State → State) (h : s.busy = true) :
    s.request op = .next s := by simp [State.request, h]

/-- The operation an instruction performs once accepted. -/
def opOf : Instr → State → State
  | .crc data                 => crcOp data
  | .chk data                 => chkOp data
  | .enc opc p1 p2 data       => encOp opc p1 p2 data
  | .decFixed data n          => decFixedOp false none data n
  | .decFixedVal data n       => decFixedOp true none data n
  | .decFixedXlen data n x    => decFixedOp false (some x) data n
  | .decFixedValXlen data n x => decFixedOp true (some x) data n
  | .decFull data             => decFullOp none data
  | .decFullXlen data x       => decFullOp (some x) data
  | .wake                     => wakeOp

/-- Every meaning is one offer of its operation. -/
theorem exec_eq_request (i : Instr) (s : State) : exec i s = s.request (opOf i) := by cases i <;> rfl

/-- What checking a trailing checksum can leave: a mismatch, with `CRC` written, or the payload. -/
theorem checkedDeliver_cases (env payload : Bytes) (s : State) :
    (trailer env ≠ crcBytes (crc16 (body env)) ∧
      checkedDeliver env payload s =
        { s with crc := crc16 (body env), status := finishStatus .checksumMismatch s.status
                 wstate := .idle }) ∨
    (trailer env = crcBytes (crc16 (body env)) ∧
      checkedDeliver env payload s =
        { s with crc := crc16 (body env), status := finishStatus .ok (setCrcok true s.status)
                 wstate := .idle, out := payload }) := by
  unfold checkedDeliver
  by_cases h : trailer env = crcBytes (crc16 (body env))
  · right; simp [h, State.deliver, State.finish]
  · left; simp [h, State.finish]

/-- What an operation leaves of the ports and the wake buffer, whatever it is. -/
theorem opOf_frame (i : Instr) (s : State) :
    (opOf i s).port = s.port ∧ (opOf i s).busLog = s.busLog ∧
    (opOf i s).busOpen = s.busOpen ∧ (opOf i s).inputs = s.inputs ∧
    ((opOf i s).wbuf = s.wbuf ∨ i = .wake) := by
  cases i <;>
    simp only [opOf, crcOp, chkOp, encOp, decFixedOp, decFullOp, checkedDeliver, wakeOp, State.deliver,
      State.finish] <;>
    (repeat' split) <;> simp

end Sys2Proof.Machine
end

