-- ==== Sys2Proof/Laws/Step.lean ====
section
/-! SUPPORT. Which of its four cases a step is in, and what the ports do in it. -/

namespace Sys2Proof.Machine

theorem step_reset {s : State} (h : s.input.rst = true) : step s = .next s.takeInput.assertReset := by
  simp [step, h]

theorem step_wake {s : State} (h : s.input.rst = false) (hb : s.busy = true) :
    step s = wakeStep s.input s.takeInput := by simp [step, h, hb]

theorem step_idle {s : State} (h : s.input.rst = false) (hb : s.busy = false)
    (ho : s.offered = none) : step s = .next s.takeInput := by
  simp only [step, h, State.takeInput_busy, State.takeInput_port, hb, ho]; rfl

theorem step_serve {s : State} {r : Request} (h : s.input.rst = false) (hb : s.busy = false)
    (ho : s.offered = some r) :
    step s = serve r s.takeInput.takeOffer := by
  simp only [step, h, State.takeInput_busy, State.takeInput_port, hb, ho]; rfl

theorem serve_ok {r : Request} {i : Instr} (h : r.offerable = true) (hd : decode r = .ok i) (s : State) :
    serve r s = exec i s := by simp [serve, h, hd]

theorem serve_illegal {r : Request} {e : Reject} (h : r.offerable = true) (hd : decode r = .error e)
    (s : State) : serve r s = execBadRequest s := by simp [serve, h, hd]

/-- Everything one transition of the wake sequencer can do when it answers a next state (R190). -/
theorem wakeStep_cases {i : Input} {s t : State} (h : wakeStep i s = .next t) :
    (s.wstate = .idle ∧ t = s) ∨
    (s.wstate = .pulse ∧
      ∃ u, u = s.issue (.transmit Config.wakePulse) ∧
        ((u.answered i.tx = none ∧ t = u) ∨
         (u.answered i.tx = some .ok ∧ t = { u.closeBus with wstate := .settle }) ∨
         (u.answered i.tx = some .err ∧ t = u.closeBus.endWake .busTransportError))) ∨
    (s.wstate = .settle ∧
      ((i.settle = true ∧ t = { s with wstate := .recv }) ∨ (i.settle = false ∧ t = s))) ∨
    (s.wstate = .recv ∧
      ∃ u, u = s.issue (.receive Config.wakeAckLen) ∧
        ((u.answered i.rx = none ∧ t = u) ∨
         (u.answered i.rx = some .err ∧ t = u.closeBus.endWake .busTransportError) ∨
         (∃ b, u.answered i.rx = some (.ok b) ∧ b.length < Config.wakeAckLen ∧
           t = State.endWake .wakeFailed { u.closeBus with wbuf := b }) ∨
         (∃ b, u.answered i.rx = some (.ok b) ∧ b.length = Config.wakeAckLen ∧
           t = { u.closeBus with wbuf := b, wstate := .cmp }))) ∨
    (s.wstate = .cmp ∧ t = s.endWake (wakeVerdict Config.wakeAck.toList s.wbuf)) := by
  unfold wakeStep at h
  cases hw : s.wstate <;> simp only [hw] at h
  · exact .inl ⟨rfl, by simpa using h.symm⟩
  · refine .inr (.inl ⟨rfl, _, rfl, ?_⟩)
    unfold wakePulseStep at h
    cases ha : (s.issue (.transmit Config.wakePulse)).answered i.tx with
    | none => simp only [ha] at h; exact .inl ⟨rfl, by simpa using h.symm⟩
    | some r =>
      cases r <;> simp only [ha] at h
      · exact .inr (.inl ⟨rfl, by simpa using h.symm⟩)
      · exact .inr (.inr ⟨rfl, by simpa using h.symm⟩)
  · refine .inr (.inr (.inl ⟨rfl, ?_⟩))
    unfold wakeSettleStep at h
    cases hs : i.settle <;> simp only [hs] at h
    · exact .inr ⟨rfl, by simpa using h.symm⟩
    · exact .inl ⟨rfl, by simpa using h.symm⟩
  · refine .inr (.inr (.inr (.inl ⟨rfl, _, rfl, ?_⟩)))
    unfold wakeRecvStep at h
    cases ha : (s.issue (.receive Config.wakeAckLen)).answered i.rx with
    | none => simp only [ha] at h; exact .inl ⟨rfl, by simpa using h.symm⟩
    | some r =>
      cases r with
      | err => simp only [ha] at h; exact .inr (.inl ⟨rfl, by simpa using h.symm⟩)
      | ok b =>
        simp only [ha] at h
        split at h
        · cases h
        · split at h
          · exact .inr (.inr (.inl ⟨b, rfl, by assumption, by simpa using h.symm⟩))
          · exact .inr (.inr (.inr ⟨b, rfl, by omega, by simpa using h.symm⟩))
  · exact .inr (.inr (.inr (.inr ⟨rfl, by simpa [wakeCmpStep] using h.symm⟩)))

/-- The wake sequencer stops in one case only: a receive answered with too many bytes. -/
theorem wakeStep_stop {i : Input} {s : State} (h : ∀ t, wakeStep i s ≠ .next t) :
    ∃ n b, i.rx = some (n, .ok b) ∧ Config.wakeAckLen < b.length := by
  unfold wakeStep at h
  cases hw : s.wstate <;> simp only [hw] at h
  · exact absurd rfl (h s)
  · unfold wakePulseStep at h
    cases ha : (s.issue (.transmit Config.wakePulse)).answered i.tx with
    | none => simp only [ha] at h; exact absurd rfl (h _)
    | some r => cases r <;> simp only [ha] at h <;> exact absurd rfl (h _)
  · exact absurd rfl (h _)
  · unfold wakeRecvStep at h
    cases ha : (s.issue (.receive Config.wakeAckLen)).answered i.rx with
    | none => simp only [ha] at h; exact absurd rfl (h _)
    | some r =>
      cases r with
      | err => simp only [ha] at h; exact absurd rfl (h _)
      | ok b =>
        simp only [ha] at h
        split at h
        · rename_i hl
          unfold State.answered at ha
          split at ha
          · rename_i n r hrx
            split at ha
            · simp only [Option.some.injEq] at ha
              exact ⟨n, b, by rw [hrx, ha], hl⟩
            · cases ha
          · cases ha
        · split at h <;> exact absurd rfl (h _)
  · exact absurd rfl (h _)

/-- A wake transition leaves the checksum, the request at the port and the coming inputs alone. -/
theorem wakeStep_frame {i : Input} {s t : State} (h : wakeStep i s = .next t) :
    t.crc = s.crc ∧ t.port = s.port ∧ t.inputs = s.inputs := by
  obtain ⟨-, rfl⟩ | ⟨-, u, rfl, h⟩ | ⟨-, h⟩ | ⟨-, u, rfl, h⟩ | ⟨-, rfl⟩ := wakeStep_cases h
  · simp
  · obtain ⟨-, rfl⟩ | ⟨-, rfl⟩ | ⟨-, rfl⟩ := h <;> simp
  · obtain ⟨-, rfl⟩ | ⟨-, rfl⟩ := h <;> simp
  · obtain ⟨-, rfl⟩ | ⟨-, rfl⟩ | ⟨b, -, -, rfl⟩ | ⟨b, -, -, rfl⟩ := h <;> simp
  · simp

theorem issue_setPort (s : State) (c : BusCall) (p : Option Request) :
    State.issue c { s with port := p } = { s.issue c with port := p } := by
  unfold State.issue; split <;> rfl

/-- An outcome with `p` at the request port of its next state. -/
def withPort (p : Option Request) : Host.Outcome State Fault Refusal → Host.Outcome State Fault Refusal
  | .next t    => .next { t with port := p }
  | .fault f   => .fault f
  | .refused r => .refused r

theorem answered_setPort (s : State) (p : Option Request) {α : Type} (a : Option (Nat × α)) :
    State.answered { s with port := p } a = s.answered a := rfl

theorem wakePulseStep_setPort (i : Input) (s : State) (p : Option Request) :
    wakePulseStep i { s with port := p } = withPort p (wakePulseStep i s) := by
  simp only [wakePulseStep, issue_setPort, answered_setPort]
  cases (s.issue (.transmit Config.wakePulse)).answered i.tx with
  | none => rfl
  | some r => cases r <;> rfl

theorem wakeRecvStep_setPort (i : Input) (s : State) (p : Option Request) :
    wakeRecvStep i { s with port := p } = withPort p (wakeRecvStep i s) := by
  simp only [wakeRecvStep, issue_setPort, answered_setPort]
  cases (s.issue (.receive Config.wakeAckLen)).answered i.rx with
  | none => rfl
  | some r =>
    cases r with
    | err => rfl
    | ok b => simp only; split <;> [rfl; (split <;> rfl)]

/-- A wake transition is the same whatever stands at the request port. -/
theorem wakeStep_setPort (i : Input) (s : State) (p : Option Request) :
    wakeStep i { s with port := p } = withPort p (wakeStep i s) := by
  rcases s with ⟨c, st, o, w, wb, q, bl, bo, ins⟩
  cases w
  · rfl
  · exact wakePulseStep_setPort i _ p
  · simp only [wakeStep, wakeSettleStep]; cases i.settle <;> rfl
  · exact wakeRecvStep_setPort i _ p
  · rfl

end Sys2Proof.Machine
end

