-- ==== Sys2Proof/Tests/Slice0.lean ====
section
/-! SUPPORT. Tests with expected values from spec/95_test_vectors.md (the vector's id stands before each),
the smoke test of the well-formedness checks, and for every obligation with hypotheses a witness that
meets them. -/

namespace Sys2Proof.Machine.Tests
open Sys2Proof.Machine.Claims

/- One theorem after another: `decide +kernel` waits for all that stands before it, and many theorems
waiting at once take more threads than there is memory for. -/
set_option Elab.async false

/-! ## Helpers -/

/-- The start state of 95_test_vectors.md 2.2 to 2.7. -/
def start : State := { State.reset with crc := 0x1234#16 }

/-- A wake in progress. -/
def waking (w : WState) : State := { State.reset with status := 0x20#8, wstate := w }

/-- A wake in progress in a step with the input `i`. -/
def wakingWith (w : WState) (i : Input) : State := { waking w with inputs := [i] }

/-- The example acknowledgment of 95_test_vectors.md. -/
def ack : Bytes := [0x04#8, 0x11#8, 0x33#8, 0x43#8]

/-- What the machine shows after an outcome. -/
def shows (o : Host.Outcome State Fault Refusal) (st : Byte) (c : U16) (out : Bytes) : Bool :=
  match o with
  | .next t => t.status == st && t.crc == c && t.out == out && t.wstate == .idle && t.busLog == []
  | _ => false

/-- As `shows`, with the first byte of `OUT`, the open `CMD_HEADER`, left out. -/
def showsFrame (o : Host.Outcome State Fault Refusal) (c : U16) (frame : Bytes) : Bool :=
  match o with
  | .next t => t.status == 0x10#8 && t.crc == c && t.out.drop 1 == frame
  | _ => false

/-- The position, the status, the output and the bus traffic after an outcome. -/
def wakes (o : Host.Outcome State Fault Refusal) (w : WState) (st : Byte) (out : Bytes)
    (log : List BusCall) : Bool :=
  match o with
  | .next t => t.wstate == w && t.status == st && t.out == out && t.busLog == log && t.crc == 0x0000#16
  | _ => false

/-- One request, every operand field set. -/
def full (req : Byte) : Request :=
  { req := req, opc := 0x51#8, p1 := 0x01#8, p2 := 0x0203#16, data := [0xAA#8], nexp := 0x09#8
    xlenv := 0x08#8 }

/-! ## Well-formedness: every check refuses an over-long `DATA` (R32) -/

def overlong : Bytes := List.replicate 257 0x00#8

theorem test_wellFormed_refuses :
    (Instr.crc overlong).wellFormed = false ∧ (Instr.chk overlong).wellFormed = false ∧
    (Instr.enc 0 0 0 overlong).wellFormed = false ∧ (Instr.decFixed overlong 0).wellFormed = false ∧
    (Instr.decFixedVal overlong 0).wellFormed = false ∧
    (Instr.decFixedXlen overlong 0 0).wellFormed = false ∧
    (Instr.decFixedValXlen overlong 0 0).wellFormed = false ∧
    (Instr.decFull overlong).wellFormed = false ∧ (Instr.decFullXlen overlong 0).wellFormed = false ∧
    ({ Request.bare 0x00#8 with data := overlong } : Request).offerable = false := by decide +kernel

theorem test_wellFormed_takes_longest :
    (Instr.enc 0 0 0 (List.replicate 256 0x00#8)).wellFormed = true ∧ Instr.wake.wellFormed = true := by
  decide +kernel

/-! ## Decoding: descriptors written out from the fields of R70, `reserved XLEN FULL VAL OP` -/

theorem test_decode_crc : decode (full 0b00000000#8) = .ok (.crc [0xAA#8]) := rfl
theorem test_decode_chk : decode (full 0b00000001#8) = .ok (.chk [0xAA#8]) := rfl
theorem test_decode_enc :
    decode (full 0b00000010#8) = .ok (.enc 0x51#8 0x01#8 0x0203#16 [0xAA#8]) := rfl
theorem test_decode_decFixed : decode (full 0b00000011#8) = .ok (.decFixed [0xAA#8] 0x09#8) := rfl
theorem test_decode_decFixedVal :
    decode (full 0b00001011#8) = .ok (.decFixedVal [0xAA#8] 0x09#8) := rfl
theorem test_decode_decFixedXlen :
    decode (full 0b00100011#8) = .ok (.decFixedXlen [0xAA#8] 0x09#8 0x08#8) := rfl
theorem test_decode_decFixedValXlen :
    decode (full 0b00101011#8) = .ok (.decFixedValXlen [0xAA#8] 0x09#8 0x08#8) := rfl
theorem test_decode_decFull : decode (full 0b00011011#8) = .ok (.decFull [0xAA#8]) := rfl
theorem test_decode_decFullXlen :
    decode (full 0b00111011#8) = .ok (.decFullXlen [0xAA#8] 0x08#8) := rfl
theorem test_decode_wake : decode (full 0b00000100#8) = .ok .wake := rfl

/-- V-BAD-01, V-BAD-04, V-BAD-07, V-BAD-08, V-BAD-09, V-BAD-11, V-BAD-12. -/
theorem test_decode_rejects_by_name :
    decode (full 0x05#8) = .error .reservedOp ∧ decode (full 0x08#8) = .error .unusedFlag ∧
    decode (full 0x0C#8) = .error .unusedFlag ∧ decode (full 0x13#8) = .error .fullWithoutVal ∧
    decode (full 0x33#8) = .error .fullWithoutVal ∧ decode (full 0x43#8) = .error .reservedBits ∧
    decode (full 0x83#8) = .error .reservedBits := ⟨rfl, rfl, rfl, rfl, rfl, rfl, rfl⟩

/-! ## The checksum -/

/-- V-CRC-T3: the register after each bit of 0x11, from 0x80C3. -/
theorem test_crcBit_trace :
    (List.range 8).map (fun n => ((List.range (n + 1)).foldl
      (fun r i => crcBit r ((0x11#8).getLsbD i)) 0x80C3#16)) =
    [0x0186#16, 0x030C#16, 0x0618#16, 0x0C30#16, 0x9865#16, 0xB0CF#16, 0xE19B#16, 0x4333#16] := by
  decide +kernel

/-- V-CRC-12. -/
theorem test_crc_golden : shows (exec (.crc [0x04#8, 0x11#8]) start) 0x10#8 0x4333#16 [0x33#8, 0x43#8] := by
  decide +kernel

/-- V-CRC-18. -/
theorem test_crc_check_string :
    shows (exec (.crc [0x31#8, 0x32#8, 0x33#8, 0x34#8, 0x35#8, 0x36#8, 0x37#8, 0x38#8, 0x39#8]) start)
      0x10#8 0xBCDD#16 [0xDD#8, 0xBC#8] := by decide +kernel

/-- V-CHK-04: the checksum bytes in the wrong order. -/
theorem test_chk_wrong_order :
    shows (exec (.chk [0x04#8, 0x11#8, 0x43#8, 0x33#8]) start) 0x10#8 0x4333#16 [] := by decide +kernel

/-- V-CHK-05: two zero bytes fail closed, and `CRC` keeps its value. -/
theorem test_chk_fails_closed :
    shows (exec (.chk [0x00#8, 0x00#8]) start) 0x10#8 0x1234#16 [] := by decide +kernel

/-! ## ENC -/

/-- V-ENC-03: the order of the fields, `P2` low byte first. -/
theorem test_enc_fields :
    showsFrame (exec (.enc 0x30#8 0x5A#8 0xABCD#16 [0x11#8, 0x22#8, 0x33#8]) start) 0x9D43#16
      [0x0A#8, 0x30#8, 0x5A#8, 0xCD#8, 0xAB#8, 0x11#8, 0x22#8, 0x33#8, 0x43#8, 0x9D#8] := by
  decide +kernel

/-- V-ENC-09: the smallest refused payload. -/
theorem test_enc_refuses_249 :
    shows (exec (.enc 0x02#8 0x00#8 0x0000#16 (List.replicate 249 0x00#8)) start) 0x16#8 0x1234#16 [] := by
  decide +kernel

/-! ## DEC -/

/-- V-DEC-02 (S4). -/
theorem test_decFixed_short :
    shows (exec (.decFixed [0x07#8, 0x11#8, 0x22#8] 4) start) 0x15#8 0x1234#16 [] := by decide +kernel

/-- V-DEC-18: bytes after the payload are ignored. -/
theorem test_decFixed_extra :
    shows (exec (.decFixed [0x04#8, 0xAB#8, 0xCD#8] 1) start) 0x10#8 0x1234#16 [0xAB#8] := by
  decide +kernel

/-- V-DEC-06: a mismatch writes `CRC`. -/
theorem test_decFixedVal_mismatch :
    shows (exec (.decFixedVal [0x07#8, 0x11#8, 0x23#8, 0x33#8, 0x44#8, 0xAC#8, 0x20#8] 4) start)
      0x14#8 0xAAAF#16 [] := by decide +kernel

/-- V-DEC-12: the payload may reach into the checksum bytes. -/
theorem test_decFixedVal_reaches_checksum :
    shows (exec (.decFixedVal ack 3) start) 0x50#8 0x4333#16 [0x11#8, 0x33#8, 0x43#8] := by
  decide +kernel

/-- V-DEC-07 and V-DEC-08. -/
theorem test_decFixedXlen :
    shows (exec (.decFixedXlen [0x05#8, 0x01#8, 0x02#8, 0x03#8, 0x04#8] 4 0x05#8) start) 0x10#8 0x1234#16
      [0x01#8, 0x02#8, 0x03#8, 0x04#8] ∧
    shows (exec (.decFixedXlen [0x05#8, 0x01#8, 0x02#8, 0x03#8, 0x04#8] 4 0x07#8) start) 0x13#8 0x1234#16
      [] := by decide +kernel

/-- V-DEC-04 and V-DEC-09: a short read first, then the length byte, then the checksum. -/
theorem test_decFixedValXlen_order :
    shows (exec (.decFixedValXlen [0x07#8, 0x11#8] 4 0x09#8) start) 0x15#8 0x1234#16 [] ∧
    shows (exec (.decFixedValXlen [0x07#8, 0x11#8, 0x23#8, 0x33#8, 0x44#8, 0xAC#8, 0x20#8] 4 0x08#8) start)
      0x13#8 0x1234#16 [] := by decide +kernel

/-- V-DEC-27: bytes from index L on are ignored. -/
theorem test_decFull_extra :
    shows (exec (.decFull (ack ++ [0xFF#8, 0xFF#8])) start) 0x50#8 0x4333#16 [0x11#8] := by decide +kernel

/-- V-DEC-21 and V-DEC-23. -/
theorem test_decFull_lengths :
    shows (exec (.decFull [0x02#8, 0x00#8, 0x00#8]) start) 0x13#8 0x1234#16 [] ∧
    shows (exec (.decFull [0x07#8, 0x11#8, 0x22#8]) start) 0x15#8 0x1234#16 [] := by decide +kernel

/-- V-DEC-25: a valid envelope of another length than the expected one. -/
theorem test_decFullXlen_wrong :
    shows (exec (.decFullXlen ack 0x23#8) start) 0x13#8 0x1234#16 [] := by decide +kernel

/-- The envelope E35 of 95_test_vectors.md 2.5 (V-DEC-14). -/
theorem test_decFullXlen_e35 :
    shows (exec (.decFullXlen
        ([0x23#8] ++ (List.range 32).map (BitVec.ofNat 8) ++ [0x70#8, 0xFA#8]) 0x23#8) start)
      0x50#8 0xFA70#16 ((List.range 32).map (BitVec.ofNat 8)) := by decide +kernel

/-! ## WAKE, one transition each -/

/-- 95_test_vectors.md P2, step 1: accepted. -/
theorem test_wake_accepted : wakes (exec .wake State.reset) .pulse 0x20#8 [] [] := by decide +kernel

/-- V-WAKE-01, V-WAKE-05: the pulse answered `Ok` and `Err`. -/
theorem test_wake_pulse :
    wakes (step (wakingWith .pulse { Input.quiet with tx := some (0, .ok) })) .settle 0x20#8 []
      [.transmit [0x00#8]] ∧
    wakes (step (wakingWith .pulse { Input.quiet with tx := some (0, .err) })) .idle 0x11#8 []
      [.transmit [0x00#8]] := by decide +kernel

/-- V-WAKE-03, V-WAKE-06: a short read and a failed receive. -/
theorem test_wake_receive_fails :
    wakes (step (wakingWith .recv { Input.quiet with rx := some (0, .ok [0x04#8, 0x11#8]) })) .idle 0x12#8
      [0x04#8, 0x11#8] [.receive 4] ∧
    wakes (step (wakingWith .recv { Input.quiet with rx := some (0, .err) })) .idle 0x11#8 []
      [.receive 4] := by decide +kernel

/-- V-WAKE-01: four bytes received, and nothing shown yet. -/
theorem test_wake_receive_four :
    wakes (step (wakingWith .recv { Input.quiet with rx := some (0, .ok ack) })) .cmp 0x20#8 []
      [.receive 4] := by decide +kernel

/-- V-WAKE-01 and V-WAKE-02, with the example acknowledgment: one bit of difference fails. -/
theorem test_wake_verdict :
    wakeVerdict ack ack = .ok ∧ wakeVerdict ack [0x04#8, 0x11#8, 0x33#8, 0x42#8] = .wakeFailed := by
  decide +kernel

/-- V-WAKE-07: `RST` in `W_SETTLE`. -/
theorem test_wake_reset :
    wakes (step (wakingWith .settle { Input.quiet with rst := true, settle := true })) .idle 0x00#8 [] [] := by
  decide +kernel

/-! ## Requests at the machine -/

/-- V-BAD-08, through a step. -/
theorem test_step_bad_request :
    shows (step { start with port := some (full 0x13#8) }) 0x16#8 0x1234#16 [] := by decide +kernel

/-- V-ACC-02: a request offered in `W_SETTLE` is held. -/
theorem test_step_holds_request :
    step (wakingWith .settle { Input.quiet with offer := .put (full 0x00#8) }) =
      .next { waking .settle with port := some (full 0x00#8) } := rfl

/-- R33, R62: the host changes a held request, and what the block takes is the changed one. -/
theorem test_step_takes_changed_request :
    shows (step { start with port := some (full 0x13#8)
                             inputs := [{ Input.quiet with offer := .put (Request.bare 0x00#8) }] })
      0x10#8 0x0000#16 [0x00#8, 0x00#8] := by decide +kernel

/-- V-ACC-04: an error does not persist. -/
theorem test_error_cleared :
    shows (exec (.crc [0x01#8]) { start with status := 0x15#8 }) 0x10#8 0x8303#16 [0x03#8, 0x83#8] := by
  decide +kernel

/-- The request that `withFetchWord` places is the one the next step runs, even where `RST` or another offer
was coming. -/
theorem test_withFetchWord :
    shows (step (State.reset.withFetchWord 8 0x01)) 0x10#8 0x0000#16 [] ∧
    shows (step ((wakingWith .recv { Input.quiet with rst := true }).withFetchWord 8 0x1B)) 0x15#8 0x0000#16
      [] ∧
    shows (step ({ State.reset with
        inputs := [{ Input.quiet with offer := .withdraw }] }.withFetchWord 8 0x05)) 0x16#8 0x0000#16 [] := by decide +kernel

/-! ## Witnesses: for every obligation with hypotheses, states and operands that meet them -/

theorem exec_open {s : State} (i : Instr) (h : s.busy = false) : exec i s = .next (opOf i s.accept) := by
  rw [exec_eq_request]; exact request_open _ h

theorem witness_CrcBitIsShiftWithTaps : 0 < 16 ∧ 2 < 16 ∧ 15 < 16 := by decide

theorem witness_ChecksumLaws : ([0x12#8, 0x34#8] : Bytes).length = [0xA0#8, 0x0B#8].length := rfl

theorem witness_ChecksumSelfConsistent : 1 ≤ ([0x00#8] : Bytes).length := by decide

theorem witness_CrcOperation :
    (Request.bare 0x00#8).req = 0x00#8 ∧ start.busy = false ∧
    (full 0x08#8).offerable = true ∧ reqOp (full 0x08#8).req = 0#3 ∧ (full 0x08#8).req ≠ 0x00#8 := by decide

/-- The clauses of CHK: a buffer of 2 bytes, and a valid one of 4 bytes whose last byte is changed. -/
theorem witness_ChkOperation :
    (Request.bare 0x01#8).req = 0x01#8 ∧ start.busy = false ∧ ([0x00#8, 0x00#8] : Bytes).length < 3 ∧
    0x43#8 ≠ 0x42#8 ∧ valid ([0x04#8, 0x11#8, 0x33#8] ++ 0x43#8 :: []) = true := by decide +kernel

/-- The clauses of ENC meet at 248 and 249 bytes of payload. -/
theorem witness_EncOperation :
    (Request.bare 0x02#8).req = 0x02#8 ∧ start.busy = false ∧
    (List.replicate 248 0x00#8).length ≤ 248 ∧ 248 < (List.replicate 249 0x00#8).length := by
  decide +kernel

theorem witness_EncFrameDescribesItself :
    start.busy = false ∧
    exec (.enc 0x02#8 0 0 []) start = .next (opOf (.enc 0x02#8 0 0 []) start.accept) ∧
    statusErr (opOf (.enc 0x02#8 0 0 []) start.accept).status = 0#4 :=
  ⟨by decide, exec_open _ (by decide), by decide +kernel⟩

/-- The clauses of DEC in fixed mode, each at the edge of its range. -/
theorem witness_DecFixedOperation :
    (Request.bare 0x03#8).req = 0x03#8 ∧ (Request.bare 0x0B#8).req = 0x0B#8 ∧
    (Request.bare 0x23#8).req = 0x23#8 ∧ (Request.bare 0x2B#8).req = 0x2B#8 ∧ start.busy = false ∧
    ([] : Bytes).length < 1 + (0#8).toNat ∧ 1 + (0#8).toNat ≤ ([0x5A#8] : Bytes).length ∧
    (1 + (1#8).toNat ≤ ([0x00#8, 0x00#8] : Bytes).length ∧ ([0x00#8, 0x00#8] : Bytes).length < 3) ∧
    (1 + (2#8).toNat ≤ ([0x03#8, 0x80#8, 0x03#8] : Bytes).length ∧ valid [0x03#8, 0x80#8, 0x03#8] = false) ∧
    (1 + (2#8).toNat ≤ ([0x03#8, 0x80#8, 0x02#8] : Bytes).length ∧ valid [0x03#8, 0x80#8, 0x02#8] = true) ∧
    ([0x05#8] : Bytes).head? ≠ some 0x07#8 ∧ ([0x05#8] : Bytes).head? = some 0x05#8 := by decide +kernel

/-- The clauses of DEC in full mode, each at the edge of its range. -/
theorem witness_DecFullOperation :
    (Request.bare 0x1B#8).req = 0x1B#8 ∧ (Request.bare 0x3B#8).req = 0x3B#8 ∧ start.busy = false ∧
    (0x02#8).toNat < 3 ∧ (3 ≤ (0x03#8).toNat ∧ ([0x03#8, 0x80#8] : Bytes).length < (0x03#8).toNat) ∧
    ((0x03#8).toNat ≤ ([0x03#8, 0x80#8, 0x03#8] : Bytes).length ∧
      valid (([0x03#8, 0x80#8, 0x03#8] : Bytes).take (0x03#8).toNat) = false) ∧
    ((0x03#8).toNat ≤ ([0x03#8, 0x80#8, 0x02#8] : Bytes).length ∧
      valid (([0x03#8, 0x80#8, 0x02#8] : Bytes).take (0x03#8).toNat) = true) ∧
    0x03#8 ≠ 0x04#8 := by decide +kernel

theorem witness_DecChecksTheWholeEnvelope :
    start.busy = false ∧ 3 ≤ ack.length ∧ (3#8).toNat ≤ ack.length - 1 ∧ ack.head? = some 0x04#8 ∧
    3 ≤ (0x04#8).toNat ∧ (0x04#8).toNat ≤ ack.length ∧
    exec (.decFixedVal ack 3) start = .next (opOf (.decFixedVal ack 3) start.accept) ∧
    exec (.decFixedValXlen ack 3 4) start = .next (opOf (.decFixedValXlen ack 3 4) start.accept) ∧
    exec (.decFull ack) start = .next (opOf (.decFull ack) start.accept) ∧
    exec (.decFullXlen ack 4) start = .next (opOf (.decFullXlen ack 4) start.accept) :=
  ⟨by decide, by decide, by decide, by decide, by decide, by decide, exec_open _ (by decide),
    exec_open _ (by decide), exec_open _ (by decide), exec_open _ (by decide)⟩

theorem witness_DecIgnoresUnreadBytes :
    1 + (3#8).toNat ≤ ack.length ∧ ack.head? = some 0x04#8 ∧ (0x04#8).toNat ≤ ack.length := by decide

theorem witness_FullAndFixedModesAgree :
    ack.head? = some 0x04#8 ∧ ack.length = (0x04#8).toNat ∧ 3 ≤ (0x04#8).toNat ∧
    (1#8).toNat = (0x04#8).toNat - 3 := by decide

theorem witness_EncodedFrameDecodes :
    start.busy = false ∧ ([] : Bytes).length ≤ 248 ∧
    exec (.enc 0x02#8 0 0 []) start = .next (opOf (.enc 0x02#8 0 0 []) start.accept) :=
  ⟨by decide, by decide, exec_open _ (by decide)⟩

theorem witness_CorruptedFrameIsNotDelivered :
    start.busy = false ∧ ([] : Bytes).length ≤ 248 ∧
    exec (.enc 0x02#8 0 0 []) start = .next (opOf (.enc 0x02#8 0 0 []) start.accept) ∧
    (opOf (.enc 0x02#8 0 0 []) start.accept).out.drop 1 =
      [0x07#8] ++ 0x02#8 :: [0x00#8, 0x00#8, 0x00#8, 0x1E#8, 0x2D#8] ∧
    ([0x07#8] : Bytes) ≠ [] ∧ 0x02#8 ≠ 0x03#8 :=
  ⟨by decide, by decide, exec_open _ (by decide), by decide +kernel, by decide, by decide⟩

theorem witness_AcceptAndFinishWrites : (waking .pulse).busy = true := by decide

/-- A failed pulse ends a wake: a busy state whose next state is not busy. -/
theorem pulse_fails : ∃ s t : State, s.busy = true ∧ s.input.rst = false ∧ step s = .next t ∧
    t.busy = false :=
  ⟨wakingWith .pulse { Input.quiet with tx := some (0, .err) }, _, by decide, rfl, rfl, by decide⟩

theorem witness_StatusCodesByOperation :
    (start.busy = false ∧ exec (.decFull []) start = .next (opOf (.decFull []) start.accept) ∧
      execBadRequest start = .next (start.accept.finish .badRequest)) ∧
    ∃ s t : State, s.busy = true ∧ s.input.rst = false ∧ step s = .next t ∧ t.busy = false :=
  ⟨⟨by decide, exec_open _ (by decide), rfl⟩, pulse_fails⟩

theorem witness_ErrorKeepsOnlyChecksum :
    start.busy = false ∧ exec (.decFull []) start = .next (opOf (.decFull []) start.accept) ∧
    statusErr (opOf (.decFull []) start.accept).status ≠ 0#4 :=
  ⟨by decide, exec_open _ (by decide), by decide⟩

theorem witness_OnlyWakeStaysBusy :
    start.busy = false ∧ exec .wake start = .next (opOf .wake start.accept) :=
  ⟨by decide, exec_open _ (by decide)⟩

theorem witness_CrcokMeansMatch :
    (start.busy = false ∧ exec (.chk ack) start = .next (opOf (.chk ack) start.accept) ∧
      execBadRequest start = .next (start.accept.finish .badRequest)) ∧
    ∃ s t : State, s.busy = true ∧ s.input.rst = false ∧ step s = .next t ∧ t.busy = false :=
  ⟨⟨by decide, exec_open _ (by decide), rfl⟩, pulse_fails⟩

theorem witness_ResultIndependentOfPast :
    start.busy = false ∧ State.reset.busy = false ∧
    exec (.chk ack) start = .next (opOf (.chk ack) start.accept) ∧
    exec (.chk ack) State.reset = .next (opOf (.chk ack) State.reset.accept) :=
  ⟨by decide, by decide, exec_open _ (by decide), exec_open _ (by decide)⟩

theorem witness_OneStepOperationsIdempotent :
    Instr.chk ack ≠ .wake ∧ start.busy = false ∧
    exec (.chk ack) start = .next (opOf (.chk ack) start.accept) :=
  ⟨by decide, by decide, exec_open _ (by decide)⟩

theorem witness_CrcHoldsLastComputation :
    (start.busy = false ∧ exec (.decFixedVal ack 3) start = .next (opOf (.decFixedVal ack 3) start.accept) ∧
      execBadRequest start = .next (start.accept.finish .badRequest)) ∧
    ∃ s t : State, s.busy = true ∧ s.input.rst = false ∧ step s = .next t ∧ t.busy = false :=
  ⟨⟨by decide, exec_open _ (by decide), rfl⟩, pulse_fails⟩

theorem witness_InstructionFrame :
    exec (.crc []) start = .next (opOf (.crc []) start.accept) ∧ Instr.crc [] ≠ .wake ∧
    start.wstate = .idle :=
  ⟨exec_open _ (by decide), by decide, rfl⟩

theorem witness_DecodeEncodeAgree :
    Instr.wake.wellFormed = true ∧ (Instr.crc (List.replicate 256 0x00#8)).wellFormed = true ∧
    decode (full 0x03#8) = .ok (.decFixed [0xAA#8] 0x09#8) ∧ (full 0x03#8).offerable = true ∧
    encode .wake = encode .wake := ⟨rfl, by decide +kernel, rfl, rfl, rfl⟩

theorem witness_UnusedFieldsIgnored :
    reqOp (full 0x03#8).req ≠ 2#3 ∧ reqOp (full 0x02#8).req ≠ 3#3 ∧ reqFull (full 0x1B#8).req = true ∧
    reqXlen (full 0x0B#8).req = false ∧ reqOp (full 0x04#8).req = 4#3 := by decide

/-- A state with `r` at the request port, open. -/
def offering (r : Request) : State := { start with port := some r }

theorem witness_IllegalDescriptorIsBadRequest :
    (offering (full 0x05#8)).input.rst = false ∧ (offering (full 0x05#8)).busy = false ∧
    (offering (full 0x05#8)).offered = some (full 0x05#8) ∧ (full 0x05#8).offerable = true ∧
    legal (full 0x05#8).req = false := by decide

theorem witness_RequestsHeldWhileBusy :
    ((waking .recv).busy = true ∧ (waking .recv).input.rst = false ∧
      step (waking .recv) = .next (receiveIssued (waking .recv))) ∧
    (offering (full 0x00#8)).busy = false ∧ (offering (full 0x00#8)).input.rst = false ∧
    (offering (full 0x00#8)).offered = some (full 0x00#8) ∧ (full 0x00#8).offerable = true :=
  ⟨⟨by decide, rfl, rfl⟩, by decide, rfl, rfl, rfl⟩

/-- A request taken back while a wake waits, and another one put in its place. -/
theorem witness_AcceptedRequestIsFixed :
    (wakingWith .settle { Input.quiet with offer := .withdraw }).busy = true ∧
    (wakingWith .settle { Input.quiet with offer := .withdraw }).inputs =
      { Input.quiet with offer := .withdraw } :: [] ∧
    step (wakingWith .settle { Input.quiet with offer := .withdraw }) = .next (waking .settle) :=
  ⟨by decide, rfl, rfl⟩

/-- Nothing at the port, and a held request taken back in the very step. -/
theorem witness_IdleStepKeepsState :
    (start.input.rst = false ∧ start.busy = false ∧ start.offered = none) ∧
    ({ offering (full 0x00#8) with inputs := [{ Input.quiet with offer := .withdraw, settle := true }] } :
      State).offered = none := by decide

/-- A request offered in the very step, at an open port. -/
theorem witness_StepRunsDecodedRequest :
    let s : State := { start with inputs := [{ Input.quiet with offer := .put (full 0x01#8) }] }
    s.input.rst = false ∧ s.busy = false ∧ s.offered = some (full 0x01#8) ∧
    (full 0x01#8).offerable = true ∧ decode (full 0x01#8) = .ok (.chk [0xAA#8]) :=
  ⟨rfl, by decide, rfl, rfl, rfl⟩

theorem witness_OverlongDataIsRefused :
    let r : Request := { Request.bare 0x00#8 with data := overlong }
    (offering r).input.rst = false ∧ (offering r).busy = false ∧ (offering r).offered = some r ∧
    256 < r.data.length := ⟨rfl, by decide, rfl, by decide +kernel⟩

/-- The start state of the vectors meets the invariant. -/
theorem start_inv : Inv start := by constructor <;> decide

/-- A wake of which nothing has been answered meets the invariant, in the three waiting positions. -/
theorem waking_inv : Inv (waking .pulse) ∧ Inv (waking .settle) ∧ Inv (waking .recv) := by
  refine ⟨?_, ?_, ?_⟩ <;> constructor <;> decide

theorem witness_WakeStartsSequencer :
    (Request.bare 0x04#8).req = 0x04#8 ∧ Inv start ∧ start.busy = false := ⟨rfl, start_inv, by decide⟩

/-- The three clauses in `W_PULSE`, the pulse not yet issued and issued already. -/
theorem witness_PulseTransitions :
    (wakingWith .pulse { Input.quiet with tx := some (0, .ok) }).input.rst = false ∧
    (waking .pulse).busy = true ∧ (waking .pulse).wstate = .pulse ∧
    0 + 1 = (pulseIssued (wakingWith .pulse { Input.quiet with tx := some (0, .ok) })).busLog.length ∧
    (wakingWith .pulse { Input.quiet with tx := some (0, .ok) }).input.tx = some (0, .ok) ∧
    0 + 1 = (pulseIssued { wakingWith .pulse { Input.quiet with tx := some (0, .err) } with
      busLog := [.transmit [0x00#8]], busOpen := true }).busLog.length ∧
    (wakingWith .pulse { Input.quiet with tx := some (0, .err) }).input.tx = some (0, .err) ∧
    (waking .pulse).input.tx = none := by decide

theorem witness_SettleTransition :
    (waking .settle).busy = true ∧ (waking .settle).wstate = .settle ∧
    (waking .settle).input.rst = false ∧ (waking .settle).input.settle = false ∧
    (wakingWith .settle { Input.quiet with settle := true }).input.settle = true := by decide

/-- The clauses in `W_RECV`, with 3, 4 and 5 bytes. -/
theorem witness_ReceiveTransitions :
    (waking .recv).busy = true ∧ (waking .recv).wstate = .recv ∧ (waking .recv).input.rst = false ∧
    0 + 1 = (receiveIssued (waking .recv)).busLog.length ∧
    (wakingWith .recv { Input.quiet with rx := some (0, .err) }).input.rx = some (0, .err) ∧
    (wakingWith .recv { Input.quiet with rx := some (0, .ok ack) }).input.rx = some (0, .ok ack) ∧
    (ack.take 3).length < 4 ∧ ack.length = 4 ∧ 4 < (ack ++ [0x00#8]).length ∧
    (waking .recv).input.rx = none := by decide

theorem witness_CompareTransition :
    let s : State := { waking .cmp with wbuf := Config.wakeAck.toList }
    (s.input.rst = false ∧ s.busy = true ∧ s.wstate = .cmp ∧ s.wbuf = Config.wakeAck.toList) ∧
    ((waking .cmp).input.rst = false ∧ (waking .cmp).busy = true ∧
      (waking .cmp).wbuf ≠ Config.wakeAck.toList) := by
  refine ⟨⟨rfl, by decide, rfl, rfl⟩, rfl, by decide, fun h => ?_⟩
  have := congrArg List.length h
  simp [waking, State.reset] at this

theorem witness_NoOtherWakeTransition :
    ∃ s t : State, Inv s ∧ step s = .next t ∧ s.wstate ≠ t.wstate :=
  ⟨{ waking .settle with inputs := [{ Input.quiet with settle := true }] }, _,
    by constructor <;> decide, rfl, by decide⟩

theorem witness_WakeEndsWithReceivedBytes :
    ∃ s t : State, Inv s ∧ s.busy = true ∧ s.input.rst = false ∧ step s = .next t ∧ t.busy = false :=
  ⟨wakingWith .recv { Input.quiet with rx := some (0, .ok [0x04#8]) }, _,
    by constructor <;> decide, by decide, rfl, rfl, by decide⟩

/-- No wait at all, the shortest case. -/
theorem witness_AnsweredWakeEnds :
    let s : State :=
      { State.reset with
        port := some (Request.bare 0x04#8)
        inputs := [Input.quiet, { Input.quiet with tx := some (0, .ok) },
          { Input.quiet with settle := true }, { Input.quiet with rx := some (1, .ok ack) },
          Input.quiet] }
    s.busy = false ∧ s.wstate = .idle ∧ s.busOpen = false ∧
    s.port = some (Request.bare 0x04#8) ∧ (Request.bare 0x04#8).req = 0x04#8 ∧
    (Request.bare 0x04#8).offerable = true ∧ ack.length = 4 ∧
    s.inputs =
      [Input.quiet] ++ List.replicate 0 Input.quiet ++
      [{ Input.quiet with tx := some (s.busLog.length, .ok) }] ++ List.replicate 0 Input.quiet ++
      [{ Input.quiet with settle := true }] ++ List.replicate 0 Input.quiet ++
      [{ Input.quiet with rx := some (s.busLog.length + 1, .ok ack) }] ++ [Input.quiet] := by
  decide

theorem witness_UnansweredWakeHangs :
    (waking .pulse).busy = true ∧ (waking .settle).busy = true ∧ (waking .recv).busy = true ∧
    (waking .pulse).inputs = [] ∧ (waking .pulse).wstate = .pulse ∧ (waking .settle).wstate = .settle ∧
    (waking .recv).wstate = .recv := by decide

theorem witness_BusTrafficOnlyInWake :
    step (waking .pulse) = .next (pulseIssued (waking .pulse)) := rfl

/-- A wake that RST abandons with its receive outstanding, the answer to which comes a step later. -/
def abandoned : State :=
  { waking .recv with
    busLog := [.receive 4], busOpen := true
    inputs := [{ Input.quiet with rst := true }, { Input.quiet with rx := some (0, .ok ack) }] }

/-- An answer that carries the number of no awaited request: in `W_PULSE`, in `W_RECV`, and at a block that
is not busy because RST abandoned the wake it belongs to. -/
theorem witness_LateAnswerIsDiscarded :
    (0 + 1 ≠ (pulseIssued { waking .pulse with busLog := [.transmit [0x00#8]] }).busLog.length ∧
      (waking .pulse).busy = true ∧ (waking .pulse).wstate = .pulse) ∧
    (7 + 1 ≠ (receiveIssued (waking .recv)).busLog.length ∧
      (waking .recv).busy = true ∧ (waking .recv).wstate = .recv) ∧
    abandoned.input.rst = true ∧ step abandoned = .next abandoned.takeInput.assertReset ∧
    abandoned.takeInput.assertReset.inputs = { Input.quiet with rx := some (0, .ok ack) } :: [] ∧
    abandoned.takeInput.assertReset.busy = false :=
  ⟨by decide, by decide, rfl, rfl, rfl, by decide⟩

/-- A request offered after RST to the empty port, and one that stands there still. -/
theorem witness_RstResetsEveryElement :
    (wakingWith .recv { Input.quiet with rst := true }).input.rst = true ∧
    ({ State.reset with inputs := [{ Input.quiet with offer := .put (full 0x00#8) }] } : State).offered =
      some (full 0x00#8) ∧
    ({ State.reset with port := some (full 0x00#8) } : State).offered = some (full 0x00#8) ∧
    (full 0x00#8).offerable = true := ⟨rfl, rfl, rfl, rfl⟩

theorem witness_StepKeepsInvariant :
    Inv (waking .pulse) ∧ step (waking .pulse) = .next (pulseIssued (waking .pulse)) :=
  ⟨waking_inv.1, rfl⟩

theorem witness_AdmissibleRunNeverStops :
    Admissible { wakingWith .recv { Input.quiet with rx := some (0, .ok ack) } with
      port := some (full 0x02#8) } := by
  refine ⟨fun r h => ?_, fun i h => ?_⟩
  · cases h; decide
  · simp only [List.mem_singleton, wakingWith] at h; subst h; decide

/-- A host's view of a completed request. -/
def view (out : Bytes) : HostView := { crc := 0x0000#16, status := 0x10#8, out := out, wstate := 0#3 }

/-- Every command needs an awake chip. -/
def allAwake : AwakeCommands := fun _ _ _ _ => true

/-- A whole transaction of R244 up to its receive. -/
theorem witness_HostReceivesAfterSettle :
    HostPhase.run allAwake .ready
      ([.completed .wake (view ack), .completed (.enc 0 0 0 []) (view [0x03#8]),
        .transmit (view [0x03#8]) [0x03#8] .ok, .settle] ++
        [.receive (view [0x03#8]) 4 (.ok ack)]) = some (.received ack) := by decide

/-- From a WAKE the host may build any command, with a CHK in between. -/
theorem witness_HostWakesBeforeAwakeCommand :
    HostPhase.run allAwake .ready
      ([.completed .wake (view ack), .completed (.chk []) (view [])] ++
        [.completed (.enc 0 0 0 []) (view [0x03#8])]) = some (.framed [0x03#8]) ∧
    allAwake 0 0 0 [] = true := by decide

/-- Between transactions, and after a WAKE that failed, a command may be built only if it needs no awake
chip (R243). -/
theorem test_host_ready_command :
    HostPhase.run allAwake .ready [.completed (.enc 0 0 0 []) (view [0x03#8])] = none ∧
    HostPhase.run allAwake .ready [.completed .wake { view [] with status := 0x12#8 },
      .completed (.enc 0 0 0 []) (view [0x03#8])] = none ∧
    HostPhase.run (fun _ _ _ _ => false) .ready [.completed (.enc 0 0 0 []) (view [0x03#8])] =
      some (.framed [0x03#8]) := by decide

/-- The idle command, a new WAKE and the next command after a transaction was abandoned. -/
theorem witness_HostWakesBeforeNextCommand :
    HostPhase.run allAwake .mustWake
      ([.idleCommand (view []), .completed .wake (view ack),
        .completed (.enc 0 0 0 []) (view [0x03#8])] ++
        [.transmit (view [0x03#8]) [0x03#8] .ok]) = some .sent := by decide

/-- A host that sends a second command without a receive breaks an obligation (R249). -/
theorem test_host_no_second_command :
    HostPhase.run allAwake .sent [.completed (.enc 0 0 0 []) (view [0x03#8])] = none ∧
    HostPhase.run allAwake .sent [.receive (view []) 4 (.ok ack)] = none := by decide

end Sys2Proof.Machine.Tests
end

section
/-! PROOFS of the statements of 00_scope.md. What an operation leaves for the host is a result fixed by
its request: the state it starts from enters by `STATUS[7]` and, where no checksum is computed, by
`CRC`. -/

namespace Sys2Proof.Machine

/-- What a request fixes of the elements the host reads (R34): `OUT`, `WSTATE`, `STATUS[6:0]`, and `CRC`
unless it is kept. -/
structure OpResult where
  out    : Bytes
  wstate : WState
  flags  : Byte
  crc    : Option U16

/-- From every accepted state `op` leaves the result `r`. -/
def Leaves (op : State → State) (r : OpResult) : Prop :=
  ∀ s : State, (op s.accept).out = r.out ∧ (op s.accept).wstate = r.wstate ∧
    (op s.accept).status = (s.status &&& 0x80#8) ||| r.flags ∧ (op s.accept).crc = r.crc.getD s.crc

/-- `op` leaves one result, whatever the accepted state. -/
def HasResult (op : State → State) : Prop := ∃ r : OpResult, Leaves op r

/-! The completions the operations are built from. -/

theorem status_of_finish_accept (e : ErrCode) (st : Byte) :
    finishStatus e (acceptStatus st) = (st &&& 0x80#8) ||| (0x10#8 ||| e.code.setWidth 8) := by
  rw [finish_accept_value, BitVec.or_assoc]

theorem hasResult_finish (e : ErrCode) : HasResult (State.finish e) :=
  ⟨⟨[], .idle, _, none⟩, fun s => ⟨rfl, rfl, status_of_finish_accept e s.status, rfl⟩⟩

theorem hasResult_deliver (bytes : Bytes) : HasResult (State.deliver bytes) :=
  ⟨⟨bytes, .idle, _, none⟩, fun s => ⟨rfl, rfl, status_of_finish_accept .ok s.status, rfl⟩⟩

theorem hasResult_crc_deliver (c : U16) (bytes : Bytes) :
    HasResult (fun s => { s with crc := c }.deliver bytes) :=
  ⟨⟨bytes, .idle, _, some c⟩, fun s => ⟨rfl, rfl, status_of_finish_accept .ok s.status, rfl⟩⟩

/-- A test of the request alone chooses between results. -/
theorem HasResult.ite {p : Prop} [Decidable p] {op op' : State → State} (h : HasResult op)
    (h' : HasResult op') : HasResult (fun s => if p then op s else op' s) := by
  by_cases hp : p
  · simpa only [if_pos hp] using h
  · simpa only [if_neg hp] using h'

/-! The operations. -/

theorem hasResult_chkOp (data : Bytes) : HasResult (chkOp data) :=
  (hasResult_finish .ok).ite
    ⟨⟨[], .idle, _, some _⟩, fun s => ⟨rfl, rfl, finish_setCrcok_accept_value _ s.status, rfl⟩⟩

theorem hasResult_encOp (opc p1 : Byte) (p2 : U16) (data : Bytes) : HasResult (encOp opc p1 p2 data) :=
  (hasResult_finish .badRequest).ite (hasResult_crc_deliver _ _)

theorem hasResult_checkedDeliver (env payload : Bytes) : HasResult (checkedDeliver env payload) :=
  .ite ⟨⟨payload, .idle, _, some _⟩, fun s => ⟨rfl, rfl, finish_setCrcok_accept_value true s.status, rfl⟩⟩
    ⟨⟨[], .idle, _, some _⟩, fun s => ⟨rfl, rfl, status_of_finish_accept .checksumMismatch s.status, rfl⟩⟩

theorem hasResult_decFixedOp (val : Bool) (xlen : Option Byte) (data : Bytes) (nexp : Byte) :
    HasResult (decFixedOp val xlen data nexp) :=
  (hasResult_finish .transportShortRead).ite <| (hasResult_finish .unexpectedResponseLength).ite <|
    .ite ((hasResult_finish .checksumMismatch).ite (hasResult_checkedDeliver _ _)) (hasResult_deliver _)

theorem hasResult_decFullOp (xlen : Option Byte) (data : Bytes) : HasResult (decFullOp xlen data) := by
  cases data with
  | nil => exact hasResult_finish .transportShortRead
  | cons b rest =>
    exact (hasResult_finish .unexpectedResponseLength).ite <|
      (hasResult_finish .unexpectedResponseLength).ite <|
      (hasResult_finish .transportShortRead).ite (hasResult_checkedDeliver _ _)

theorem hasResult_wakeOp : HasResult wakeOp :=
  ⟨⟨[], .pulse, _, none⟩, fun s => ⟨rfl, rfl, acceptStatus_value s.status, rfl⟩⟩

/-- Every instruction fixes its result (R14). -/
theorem hasResult_opOf (i : Instr) : HasResult (opOf i) := by
  cases i with
  | crc data => exact hasResult_crc_deliver _ _
  | chk data => exact hasResult_chkOp data
  | enc opc p1 p2 data => exact hasResult_encOp opc p1 p2 data
  | decFixed data n => exact hasResult_decFixedOp false none data n
  | decFixedVal data n => exact hasResult_decFixedOp true none data n
  | decFixedXlen data n x => exact hasResult_decFixedOp false (some x) data n
  | decFixedValXlen data n x => exact hasResult_decFixedOp true (some x) data n
  | decFull data => exact hasResult_decFullOp none data
  | decFullXlen data x => exact hasResult_decFullOp (some x) data
  | wake => exact hasResult_wakeOp

/-- Only an open port takes the instruction, and then its operation runs from the accepted state. -/
theorem next_of_exec_open {i : Instr} {s t : State} (hs : s.busy = false) (h : exec i s = .next t) :
    t = opOf i s.accept := by
  rw [exec_eq_request, request_open _ hs] at h
  exact (Host.Outcome.next.inj h).symm

/-- A masked `STATUS` has the bits 6:0 of the value over the reserved bit. -/
theorem low_bits_masked (st b : Byte) : ((st &&& 0x80#8) ||| b) &&& 0x7F#8 = b &&& 0x7F#8 := by
  refine BitVec.eq_of_getLsbD_eq fun i hi => ?_
  interval_cases i <;> simp

/-- Settles O24: both runs leave the one result that the instruction fixes. -/
theorem resultIndependentOfPast : Obligations.ResultIndependentOfPast := by
  intro i s s' t t' hs hs' ht ht'
  obtain rfl := next_of_exec_open hs ht
  obtain rfl := next_of_exec_open hs' ht'
  obtain ⟨r, hr⟩ := hasResult_opOf i
  obtain ⟨hout, hw, hst, hcrc⟩ := hr s
  obtain ⟨hout', hw', hst', hcrc'⟩ := hr s'
  refine ⟨hout.trans hout'.symm, hw.trans hw'.symm, ?_, ?_⟩
  · rw [hst, hst', low_bits_masked, low_bits_masked]
  · cases hc : r.crc with
    | none => exact .inr ⟨by rw [hcrc, hc]; rfl, by rw [hcrc', hc]; rfl⟩
    | some c => exact .inl (by rw [hcrc, hcrc', hc]; rfl)

end Sys2Proof.Machine
end

section
/-! PROOFS of the statements of 10_state.md. An operation that completes in the step that accepts it leaves
one of the values of `reports` in `STATUS`, and `Completes` says of it what R21, R26 and R28 ask about; a
step is a reset, a wake transition, nothing, or the operation of the request at the port. -/

namespace Sys2Proof.Machine
open Claims

/-! ## Completions -/

/-- `STATUS[6:0]` after a completion: done with a code of 0 to 6, or done with a checksum match (R210). -/
def reports : List Byte := [0x10#8, 0x11#8, 0x12#8, 0x13#8, 0x14#8, 0x15#8, 0x16#8, 0x50#8]

/-- Run from an accepted state `op` completes: it leaves a report, which is a checksum match exactly where
`matched`, an `OUT` that fits, and in `CRC` the checksum of `sum`, or `CRC` as it was. -/
def Completes (op : State → State) (matched : Prop) (sum : Option Bytes) : Prop :=
  ∃ b out, b ∈ reports ∧ (b = 0x50#8 ↔ matched) ∧ out.length ≤ Config.maxOut ∧
    ∀ s : State, op s.accept = done s b out ((sum.map crc16).getD s.crc)

theorem Completes.of_eq {op op' : State → State} {m : Prop} {c : Option Bytes} (h : Completes op m c)
    (hop : ∀ s : State, op' s.accept = op s.accept) : Completes op' m c := by
  obtain ⟨b, out, hb, hmatch, hout, hdone⟩ := h
  exact ⟨b, out, hb, hmatch, hout, fun s => (hop s).trans (hdone s)⟩

theorem Completes.congr {op : State → State} {m m' : Prop} {c c' : Option Bytes}
    (h : Completes op m c) (hm : m ↔ m') (hc : c = c') : Completes op m' c' := by
  rwa [← propext hm, ← hc]

/-- A test of the request alone chooses between completions. -/
theorem Completes.ite {p : Prop} [Decidable p] {op op' : State → State} {m m' : Prop}
    {c c' : Option Bytes} (h : p → Completes op m c) (h' : ¬ p → Completes op' m' c') :
    Completes (fun s => if p then op s else op' s) (if p then m else m') (if p then c else c') := by
  by_cases hp : p
  · simpa only [if_pos hp] using h hp
  · simpa only [if_neg hp] using h' hp

theorem code_le {e : ErrCode} (he : e ≠ .unrecognizedLockState) : e.code.toNat ≤ 6 := by
  cases e with
  | unrecognizedLockState => exact absurd rfl he
  | _ => decide

theorem finish_report_mem {e : ErrCode} (he : e ≠ .unrecognizedLockState) :
    0x10#8 ||| e.code.setWidth 8 ∈ reports := by
  cases e with
  | unrecognizedLockState => exact absurd rfl he
  | _ => decide

theorem finish_report_ne_match (e : ErrCode) : 0x10#8 ||| e.code.setWidth 8 ≠ 0x50#8 := by
  cases e <;> decide

/-- A completion with the code `e` and no checksum comparison that matched. -/
theorem completes_report {e : ErrCode} (he : e ≠ .unrecognizedLockState) (sum : Option Bytes) {out : Bytes}
    (hout : out.length ≤ Config.maxOut) :
    Completes (fun s => State.finish e { s with crc := (sum.map crc16).getD s.crc, out := out })
      False sum := by
  refine ⟨_, out, finish_report_mem he, by simp [finish_report_ne_match], hout, fun s => ?_⟩
  simp only [State.finish, State.accept, status_of_finish_accept]; rfl

/-- A completion that writes the verdict `b` of a checksum comparison. -/
theorem completes_verdict (b : Bool) (sum : Bytes) {out : Bytes} (hout : out.length ≤ Config.maxOut) :
    Completes (fun s => State.finish .ok
      { s with crc := crc16 sum, status := setCrcok b s.status, out := out }) (b = true) (some sum) := by
  refine ⟨if b then 0x50#8 else 0x10#8, out, ?_, ?_, hout, fun s => ?_⟩
  · cases b <;> decide
  · cases b <;> decide
  · simp only [State.finish, State.accept, finish_setCrcok_accept_value]; rfl

theorem completes_finish {e : ErrCode} (he : e ≠ .unrecognizedLockState) :
    Completes (State.finish e) False none :=
  (completes_report he none (out := []) (by simp)).of_eq fun _ => rfl

theorem completes_deliver {out : Bytes} (hout : out.length ≤ Config.maxOut) :
    Completes (State.deliver out) False none :=
  (completes_report (by decide) none hout).of_eq fun _ => rfl

theorem completes_crc_deliver (sum : Bytes) {out : Bytes} (hout : out.length ≤ Config.maxOut) :
    Completes (fun s => { s with crc := crc16 sum }.deliver out) False (some sum) :=
  completes_report (by decide) (some sum) hout

/-- A test that fails completes with its code, and what the operation does else it does only where the
test passes. -/
theorem Completes.unless {p : Prop} [Decidable p] {e : ErrCode} {op : State → State} {m : Prop}
    {c : Option Bytes} (he : e ≠ .unrecognizedLockState) (h : ¬ p → Completes op m c) :
    Completes (fun s => if p then s.finish e else op s) (¬ p ∧ m) (if ¬ p then c else none) :=
  (Completes.ite (fun _ => completes_finish he) h).congr (by by_cases hp : p <;> simp [hp]) (ite_not ..).symm

/-! ## What each operation completes with -/

theorem slice_length_le (s : Bytes) (i j : Nat) : (slice s i j).length ≤ j - i := by
  rw [slice_length]; omega

theorem body_eq_take (s : Bytes) : body s = s.take (s.length - 2) := slice_zero s _

theorem crcBytes_length (c : U16) : (crcBytes c).length = 2 := rfl

theorem completes_crcOp (data : Bytes) : Completes (crcOp data) False (some data) :=
  completes_crc_deliver data (by simp [crcBytes_length, Config.maxOut])

theorem completes_chkOp (data : Bytes) :
    Completes (chkOp data) (valid data = true)
      (if 3 ≤ data.length then some (data.take (data.length - 2)) else none) := by
  have h : Completes (chkOp data) (¬ data.length < 3 ∧ (trailer data == crcBytes (crc16 (body data))) = true) _ :=
    .unless (by decide) fun _ =>
      (completes_verdict _ (body data) (out := []) (by simp)).of_eq fun _ => rfl
  refine h.congr ?_ (by simp only [Nat.not_lt, body_eq_take])
  by_cases hlen : data.length < 3 <;> simp [valid, hlen]

theorem completes_encOp (opc p1 : Byte) (p2 : U16) (data : Bytes) :
    Completes (encOp opc p1 p2 data) False
      (if data.length ≤ 248 then
        some ([BitVec.ofNat 8 (7 + data.length), opc, p1, lo8 p2, hi8 p2] ++ data) else none) := by
  have h : Completes (encOp opc p1 p2 data) _ _ :=
    .unless (by decide) fun hfits => completes_crc_deliver (frameBody opc p1 p2 data) (by
      simp only [Config.maxPayload] at hfits
      simp [frameBody, crcBytes_length, Config.maxOut]; omega)
  exact h.congr (by simp) (by simp only [Nat.not_lt]; rfl)

/-- The trailing checksum of `env` decides; it is computed in both cases (R158). -/
theorem completes_checkedDeliver {env payload : Bytes} (henv : 3 ≤ env.length)
    (hout : payload.length ≤ Config.maxOut) :
    Completes (checkedDeliver env payload) (valid env = true) (some (env.take (env.length - 2))) := by
  have h : Completes (checkedDeliver env payload) _ _ :=
    .ite (fun _ => (completes_verdict true (body env) hout).of_eq fun _ => rfl)
      (fun _ => (completes_report (e := .checksumMismatch) (by decide) (some (body env))
        (out := []) (by simp)).of_eq fun _ => rfl)
  exact h.congr (by simp [valid_of_length henv]) (by simp [body_eq_take])

/-- The checksum of an envelope that is the first `k` bytes of the buffer. -/
theorem completes_checkedDeliver_take {data payload : Bytes} {k : Nat} (hmin : 3 ≤ k) (hk : k ≤ data.length)
    (hout : payload.length ≤ Config.maxOut) :
    Completes (checkedDeliver (slice data 0 k) payload) (valid (data.take k) = true)
      (some (data.take (k - 2))) := by
  have hlen : (data.take k).length = k := List.length_take_of_le hk
  rw [slice_zero]
  refine (completes_checkedDeliver (by omega) hout).congr Iff.rfl ?_
  rw [hlen, List.take_take, Nat.min_eq_left (by omega)]

theorem length_of_valid {s : Bytes} (h : valid s = true) : 3 ≤ s.length := by
  unfold valid at h; split at h
  · cases h
  · omega

theorem completes_decFixedOp (val : Bool) (xlen : Option Byte) (data : Bytes) (n : Byte) :
    Completes (decFixedOp val xlen data n)
      (1 + n.toNat ≤ data.length ∧ lengthByteDiffers xlen data = false ∧ val = true ∧ valid data = true)
      (if 1 + n.toNat ≤ data.length ∧ lengthByteDiffers xlen data = false ∧ val = true ∧ 3 ≤ data.length then
        some (data.take (data.length - 2)) else none) := by
  have hpayload : (slice data 1 (1 + n.toNat)).length ≤ Config.maxOut := by
    have := slice_length_le data 1 (1 + n.toNat)
    have := n.isLt
    simp only [Config.maxOut]; omega
  have h : Completes (decFixedOp val xlen data n) _ _ :=
    .unless (by decide) fun _ => .unless (by decide) fun _ =>
      .ite (fun _ => .unless (by decide) fun hlen => completes_checkedDeliver (Nat.le_of_not_lt hlen) hpayload)
        (fun _ => completes_deliver hpayload)
  cases val
  · exact h.congr (by simp) (by simp)
  · exact h.congr (by simp +contextual [length_of_valid]) (by simp [ite_and])

theorem completes_decFullOp_cons (xlen : Option Byte) (b : Byte) (rest : Bytes) :
    Completes (decFullOp xlen (b :: rest))
      (lengthByteDiffers xlen (b :: rest) = false ∧ 3 ≤ b.toNat ∧ b.toNat ≤ (b :: rest).length ∧
        valid ((b :: rest).take b.toNat) = true)
      (if lengthByteDiffers xlen (b :: rest) = false ∧ 3 ≤ b.toNat ∧ b.toNat ≤ (b :: rest).length then
        some ((b :: rest).take (b.toNat - 2)) else none) := by
  have hpayload : (slice (b :: rest) 1 (b.toNat - 2)).length ≤ Config.maxOut := by
    have := slice_length_le (b :: rest) 1 (b.toNat - 2)
    have := b.isLt
    simp only [Config.maxOut]; omega
  have h : Completes (decFullOp xlen (b :: rest)) _ _ :=
    .unless (by decide) fun _ => .unless (by decide) fun hmin => .unless (by decide) fun hlen =>
      completes_checkedDeliver_take (Nat.le_of_not_lt hmin) (Nat.le_of_not_lt hlen) hpayload
  exact h.congr (by simp [Config.respOverhead]) (by simp [Config.respOverhead, ite_and])

/-- `DEC` in full mode on a buffer with no byte 0, whatever it is said to match and to check. -/
theorem completes_decFullOp_nil (xlen : Option Byte) : Completes (decFullOp xlen []) False none :=
  completes_finish (e := .transportShortRead) (by decide)

/-- Every instruction but WAKE completes when it is accepted (R24), with a match exactly where R26 has one
and the checksum of the bytes R21 names. -/
theorem completes_opOf {i : Instr} (hi : i ≠ .wake) :
    Completes (opOf i) (comparesAndMatches i) (checksummed i) := by
  cases i with
  | crc data => exact completes_crcOp data
  | chk data => exact completes_chkOp data
  | enc opc p1 p2 data => exact completes_encOp opc p1 p2 data
  | decFixed data n =>
    exact (completes_decFixedOp false none data n).congr (by simp [comparesAndMatches])
      (by simp [checksummed])
  | decFixedVal data n =>
    exact (completes_decFixedOp true none data n).congr
      (by simp [comparesAndMatches, lengthByteDiffers]) (by simp [checksummed, lengthByteDiffers])
  | decFixedXlen data n x =>
    exact (completes_decFixedOp false (some x) data n).congr (by simp [comparesAndMatches])
      (by simp [checksummed])
  | decFixedValXlen data n x =>
    exact (completes_decFixedOp true (some x) data n).congr
      (by simp [comparesAndMatches, lengthByteDiffers]) (by simp [checksummed, lengthByteDiffers])
  | decFull data =>
    cases data with
    | nil => exact (completes_decFullOp_nil none).congr (by simp [comparesAndMatches]) rfl
    | cons b rest =>
      exact (completes_decFullOp_cons none b rest).congr
        (by simp [comparesAndMatches, lengthByteDiffers]) (by simp [checksummed, lengthByteDiffers])
  | decFullXlen data x =>
    cases data with
    | nil =>
      exact (completes_decFullOp_nil (some x)).congr (by simp [comparesAndMatches])
        (by simp [checksummed])
    | cons b rest =>
      refine (completes_decFullOp_cons (some x) b rest).congr ?_ ?_
      · simp +contextual [comparesAndMatches, lengthByteDiffers]
      · by_cases hx : b = x <;> simp [checksummed, lengthByteDiffers, hx]
  | wake => exact absurd rfl hi

/-! ## The report of a completion -/

theorem statusReserved_masked (st b : Byte) :
    statusReserved ((st &&& 0x80#8) ||| b) = (statusReserved st || b.getLsbD 7) := by
  simp [statusReserved]

/-- `DONE`, `BUSY`, `CRCOK`, the reserved bit and `ERR` of a report. -/
theorem reports_fields : ∀ b ∈ reports, b.getLsbD 4 = true ∧ b.getLsbD 5 = false ∧
    (b.getLsbD 6 = true ↔ b = 0x50#8) ∧ b.getLsbD 7 = false ∧ (b.extractLsb' 0 4).toNat ≤ 6 := by decide

section
variable {b : Byte} (hb : b ∈ reports) (s : State) (out : Bytes) (c : U16)
include hb

theorem done_done : statusDone (done s b out c).status = true := by
  obtain ⟨h, -⟩ := reports_fields b hb
  exact (statusDone_masked s.status b).trans h

theorem done_busy : (done s b out c).busy = false := by
  obtain ⟨-, h, -⟩ := reports_fields b hb
  exact (statusBusy_masked s.status b).trans h

theorem done_crcok : statusCrcok (done s b out c).status = true ↔ b = 0x50#8 := by
  obtain ⟨-, -, h, -⟩ := reports_fields b hb
  rw [← h]; exact iff_of_eq (congrArg (· = true) (statusCrcok_masked s.status b))

theorem done_reserved : statusReserved (done s b out c).status = statusReserved s.status := by
  obtain ⟨-, -, -, h, -⟩ := reports_fields b hb
  exact (statusReserved_masked s.status b).trans (by rw [h, Bool.or_false])

theorem done_err_le : (statusErr (done s b out c).status).toNat ≤ 6 := by
  obtain ⟨-, -, -, -, h⟩ := reports_fields b hb
  exact (congrArg BitVec.toNat (statusErr_masked s.status b)).trans_le h

end

/-! ## What a step can do -/

/-- The operation of a request: its instruction's, or the completion of an illegal one (R77). -/
def requestOp (r : Request) : State → State :=
  match decode r with
  | .ok i    => opOf i
  | .error _ => State.finish .badRequest

theorem serve_eq_request {r : Request} (h : r.offerable = true) (s : State) :
    serve r s = s.request (requestOp r) := by
  cases hd : decode r with
  | ok i => rw [serve_ok h hd, exec_eq_request, requestOp, hd]
  | error e => rw [serve_illegal h hd, execBadRequest, requestOp, hd]

theorem serve_refused {r : Request} (h : r.offerable = false) (s : State) :
    serve r s = .refused .dataNotOfferable := by simp [serve, h]

/-- The operation of a request starts a wake or completes. -/
theorem requestOp_cases (r : Request) :
    requestOp r = wakeOp ∨ ∃ m c, Completes (requestOp r) m c := by
  unfold requestOp
  cases decode r with
  | error e => exact .inr ⟨_, _, completes_finish (e := .badRequest) (by decide)⟩
  | ok i =>
    by_cases hi : i = .wake
    · exact .inl (by rw [hi]; rfl)
    · exact .inr ⟨_, _, completes_opOf hi⟩

/-- What the operation of a request leaves of the ports. -/
theorem requestOp_frame (r : Request) (s : State) :
    (requestOp r s.accept).port = s.port ∧ (requestOp r s.accept).busLog = s.busLog ∧
    (requestOp r s.accept).inputs = s.inputs := by
  obtain h | ⟨m, c, b, out, -, -, -, hdone⟩ := requestOp_cases r
  · rw [h]; exact ⟨rfl, rfl, rfl⟩
  · rw [hdone]; exact ⟨rfl, rfl, rfl⟩

/-- Everything a step can do when it answers a next state. -/
theorem step_cases {s t : State} (h : step s = .next t) :
    (s.input.rst = true ∧ t = s.takeInput.assertReset) ∨
    (s.input.rst = false ∧ s.busy = true ∧ wakeStep s.input s.takeInput = .next t) ∨
    (s.input.rst = false ∧ s.busy = false ∧ s.offered = none ∧ t = s.takeInput) ∨
    (s.input.rst = false ∧ s.busy = false ∧ ∃ r, s.offered = some r ∧ r.offerable = true ∧
      t = requestOp r s.takeInput.takeOffer.accept) := by
  cases hrst : s.input.rst with
  | true => rw [step_reset hrst] at h; exact .inl ⟨rfl, (Host.Outcome.next.inj h).symm⟩
  | false =>
    refine .inr ?_
    cases hb : s.busy with
    | true => rw [step_wake hrst hb] at h; exact .inl ⟨rfl, rfl, h⟩
    | false =>
      refine .inr ?_
      cases ho : s.offered with
      | none => rw [step_idle hrst hb ho] at h; exact .inl ⟨rfl, rfl, rfl, (Host.Outcome.next.inj h).symm⟩
      | some r =>
        rw [step_serve hrst hb ho] at h
        cases hr : r.offerable with
        | false => rw [serve_refused hr] at h; cases h
        | true =>
          rw [serve_eq_request hr, request_open (s := s.takeInput.takeOffer) _ hb] at h
          exact .inr ⟨rfl, rfl, r, rfl, hr, (Host.Outcome.next.inj h).symm⟩

/-! ## The invariant -/

/-- A block that is not busy meets the invariant by the bounds of its fields alone. -/
theorem inv_of_idle {s : State} (hbusy : s.busy = false) (hidle : s.wstate = .idle) (hopen : s.busOpen = false)
    (hres : statusReserved s.status = false) (herr : (statusErr s.status).toNat ≤ 6)
    (hout : s.out.length ≤ Config.maxOut) (hbuf : s.wbuf.length ≤ Config.wakeAckLen) : Inv s where
  busy_not_done := by simp [hbusy]
  busy_iff_wake := by simp [hbusy, hidle]
  reserved_zero := hres
  err_produced := herr
  out_bounded := hout
  wbuf_bounded := hbuf
  wake_report := by simp [hbusy]
  wbuf_empty := by simp [hidle]
  cmp_full := by simp [hidle]
  bus_request := by simp [hopen]

theorem inv_assertReset (s : State) : Inv s.assertReset :=
  inv_of_idle (by decide : statusBusy 0x00#8 = false) rfl rfl (by decide : statusReserved 0x00#8 = false)
    (by decide : (statusErr 0x00#8).toNat ≤ 6) (Nat.zero_le _) (Nat.zero_le _)

/-- Settles O51: the reset state is what RST makes of it. -/
theorem resetMeetsInvariant : Obligations.ResetMeetsInvariant := inv_assertReset State.reset

section
variable {s : State} (hs : Inv s)
include hs

/-- The request port and the coming inputs are not in the invariant. -/
theorem Inv.setPorts (p : Option Request) (ins : List Input) : Inv { s with port := p, inputs := ins } := by
  cases hs; constructor <;> assumption

theorem Inv.busy_of_wake (hw : s.wstate ≠ .idle) : s.busy = true := hs.busy_iff_wake.mpr hw

theorem Inv.idle_of_not_busy (hb : s.busy = false) : s.wstate = .idle := by
  by_contra hw
  exact absurd (hs.busy_of_wake hw) (by simp [hb])

/-- A bus request is outstanding in `W_PULSE` and `W_RECV` only (R43). -/
theorem Inv.bus_closed (hp : s.wstate ≠ .pulse) (hr : s.wstate ≠ .recv) : s.busOpen = false := by
  by_contra ho
  obtain ⟨h, -⟩ | ⟨h, -⟩ := hs.bus_request (by simpa using ho)
  · exact hp h
  · exact hr h

/-- Accepting WAKE at an open port: the sequencer starts with an empty buffer (R181). -/
theorem Inv.wakeOp (hb : s.busy = false) : Inv (wakeOp s.accept) where
  busy_not_done _ := statusDone_accept s.status
  busy_iff_wake := by simp [statusBusy_accept]
  reserved_zero := (statusReserved_accept s.status).trans hs.reserved_zero
  err_produced := by simp [statusErr_accept]
  out_bounded := by simp
  wbuf_bounded := by simp
  wake_report _ := ⟨rfl, statusErr_accept s.status, statusCrcok_accept s.status⟩
  wbuf_empty _ := rfl
  cmp_full := by simp
  bus_request := by
    have hidle := hs.idle_of_not_busy hb
    simp [hs.bus_closed (by simp [hidle]) (by simp [hidle])]

/-- A completion at an open port. -/
theorem Inv.done {b : Byte} {out : Bytes} (hb : s.busy = false) (hrep : b ∈ reports)
    (hout : out.length ≤ Config.maxOut) (c : U16) : Inv (done s b out c) := by
  have hidle := hs.idle_of_not_busy hb
  exact inv_of_idle (done_busy hrep s out c) rfl (hs.bus_closed (by simp [hidle]) (by simp [hidle]))
    ((done_reserved hrep s out c).trans hs.reserved_zero) (done_err_le hrep s out c) hout hs.wbuf_bounded

/-- The operation of a request accepted at an open port. -/
theorem Inv.requestOp (hb : s.busy = false) (r : Request) : Inv (requestOp r s.accept) := by
  obtain h | ⟨m, c, b, out, hrep, -, hout, hdone⟩ := requestOp_cases r
  · rw [h]; exact hs.wakeOp hb
  · rw [hdone]; exact hs.done hb hrep hout _

/-- Issuing the bus request of the position the sequencer is in. -/
theorem Inv.issue {c : BusCall} (hc : (s.wstate = .pulse ∧ c = .transmit Config.wakePulse) ∨
    (s.wstate = .recv ∧ c = .receive Config.wakeAckLen)) : Inv (s.issue c) := by
  cases ho : s.busOpen with
  | true => simpa [State.issue, ho] using hs
  | false =>
    have hissue : s.issue c = { s with busLog := s.busLog ++ [c], busOpen := true } := by
      simp [State.issue, ho]
    rw [hissue]
    refine { hs with bus_request := fun _ => ?_ }
    obtain ⟨hw, rfl⟩ | ⟨hw, rfl⟩ := hc
    · exact .inl ⟨hw, by simp⟩
    · exact .inr ⟨hw, by simp⟩

theorem Inv.closeBus : Inv s.closeBus := { hs with bus_request := by simp }

/-- A move of the sequencer to a position `w` with `buf` received so far: nothing before `W_CMP`, and the
whole acknowledgment in it. -/
theorem Inv.advance {w : WState} {buf : Bytes} (hb : s.busy = true) (hopen : s.busOpen = false) (hw : w ≠ .idle)
    (hbuf : (w ≠ .cmp ∧ buf = []) ∨ (w = .cmp ∧ buf.length = Config.wakeAckLen)) :
    Inv { s with wbuf := buf, wstate := w } :=
  { hs with
    busy_iff_wake := iff_of_true hb hw
    wbuf_bounded := by obtain ⟨-, rfl⟩ | ⟨-, h⟩ := hbuf <;> simp [*]
    wbuf_empty := by obtain ⟨-, h⟩ | ⟨rfl, -⟩ := hbuf <;> simp [*]
    cmp_full := by obtain ⟨h, -⟩ | ⟨-, h⟩ := hbuf <;> simp [*]
    bus_request := by simp [hopen] }

/-- The end of a wake with `buf` received (R189). -/
theorem Inv.endWake {e : ErrCode} {buf : Bytes} (he : e ≠ .unrecognizedLockState) (hopen : s.busOpen = false)
    (hbuf : buf.length ≤ Config.wakeAckLen) : Inv (State.endWake e { s with wbuf := buf }) := by
  refine inv_of_idle (statusBusy_finish e s.status) rfl hopen
    ((statusReserved_finish e s.status).trans hs.reserved_zero) ?_ (hbuf.trans (by decide)) hbuf
  rw [State.endWake_status, statusErr_finish]
  exact code_le he

end

theorem wakeVerdict_ne (ack received : Bytes) : wakeVerdict ack received ≠ .unrecognizedLockState := by
  unfold wakeVerdict; split <;> decide

theorem Inv.wakeStep {i : Input} {s t : State} (hs : Inv s) (h : wakeStep i s = .next t) : Inv t := by
  obtain ⟨-, rfl⟩ | ⟨hw, u, hu, h⟩ | ⟨hw, h⟩ | ⟨hw, u, hu, h⟩ | ⟨hw, rfl⟩ := wakeStep_cases h
  · exact hs
  · have hinv : Inv u := hu ▸ hs.issue (.inl ⟨hw, rfl⟩)
    have hwu : u.wstate = .pulse := by simp [hu, hw]
    have hempty : u.wbuf = [] := hinv.wbuf_empty (.inl hwu)
    obtain ⟨-, rfl⟩ | ⟨-, rfl⟩ | ⟨-, rfl⟩ := h
    · exact hinv
    · exact hinv.closeBus.advance (hinv.busy_of_wake (by simp [hwu])) rfl (by decide) (.inl ⟨by decide, hempty⟩)
    · exact hinv.closeBus.endWake (by decide) rfl hinv.wbuf_bounded
  · have hempty : s.wbuf = [] := hs.wbuf_empty (.inr (.inl hw))
    obtain ⟨-, rfl⟩ | ⟨-, rfl⟩ := h
    · exact hs.advance (hs.busy_of_wake (by simp [hw])) (hs.bus_closed (by simp [hw]) (by simp [hw])) (by decide)
        (.inl ⟨by decide, hempty⟩)
    · exact hs
  · have hinv : Inv u := hu ▸ hs.issue (.inr ⟨hw, rfl⟩)
    have hbu : u.busy = true := hinv.busy_of_wake (by simp [hu, hw])
    obtain ⟨-, rfl⟩ | ⟨-, rfl⟩ | ⟨b, -, hlen, rfl⟩ | ⟨b, -, hlen, rfl⟩ := h
    · exact hinv
    · exact hinv.closeBus.endWake (by decide) rfl hinv.wbuf_bounded
    · exact hinv.closeBus.endWake (by decide) rfl hlen.le
    · exact hinv.closeBus.advance hbu rfl (by decide) (.inr ⟨rfl, hlen⟩)
  · exact hs.endWake (wakeVerdict_ne _ _) (hs.bus_closed (by simp [hw]) (by simp [hw])) hs.wbuf_bounded

/-- Settles O52: each of the four things a step can do keeps the invariant. -/
theorem stepKeepsInvariant : Obligations.StepKeepsInvariant := by
  intro s t hs h
  have hinput : Inv s.takeInput := hs.setPorts _ _
  obtain ⟨-, rfl⟩ | ⟨-, -, h⟩ | ⟨-, -, -, rfl⟩ | ⟨-, hb, r, -, -, rfl⟩ := step_cases h
  · exact inv_assertReset _
  · exact hinput.wakeStep h
  · exact hinput
  · exact (hinput.setPorts none _).requestOp hb r

/-! ## The statements about one operation -/

/-- An instruction other than WAKE, run from an open port, leaves a completion. -/
theorem exec_completes {i : Instr} {s t : State} (hi : i ≠ .wake) (hs : s.busy = false)
    (h : exec i s = .next t) :
    ∃ b out, b ∈ reports ∧ (b = 0x50#8 ↔ comparesAndMatches i) ∧
      t = done s b out (((checksummed i).map crc16).getD s.crc) := by
  obtain ⟨b, out, hb, hmatch, -, hdone⟩ := completes_opOf hi
  exact ⟨b, out, hb, hmatch, (next_of_exec_open hs h).trans (hdone s)⟩

theorem exec_wake_open {s t : State} (hs : s.busy = false) (h : exec .wake s = .next t) :
    t = wakeOp s.accept := next_of_exec_open hs h

theorem next_of_execBadRequest_open {s t : State} (hs : s.busy = false) (h : execBadRequest s = .next t) :
    t = s.accept.finish .badRequest := by
  rw [execBadRequest, request_open _ hs] at h
  exact (Host.Outcome.next.inj h).symm

theorem next_of_exec_busy {i : Instr} {s t : State} (hs : s.busy = true) (h : exec i s = .next t) : t = s := by
  rw [exec_eq_request, request_held _ hs] at h
  exact (Host.Outcome.next.inj h).symm

/-- Settles O22: WAKE leaves what `accept` wrote, every other instruction a report. -/
theorem onlyWakeStaysBusy : Obligations.OnlyWakeStaysBusy := by
  intro i s t hs h
  by_cases hi : i = .wake
  · subst hi
    obtain rfl := exec_wake_open hs h
    simp [statusBusy_accept, statusDone_accept]
  · obtain ⟨b, out, hb, -, rfl⟩ := exec_completes hi hs h
    simp [done_busy hb, done_done hb, hi]

/-- A wake transition writes `STATUS` only where it ends the wake, and then as `finish` does. -/
theorem wakeStep_status {i : Input} {s t : State} (h : wakeStep i s = .next t) :
    t.status = s.status ∨ ∃ e, t.status = finishStatus e s.status := by
  obtain ⟨-, rfl⟩ | ⟨-, u, rfl, h⟩ | ⟨-, h⟩ | ⟨-, u, rfl, h⟩ | ⟨-, rfl⟩ := wakeStep_cases h
  · exact .inl rfl
  · obtain ⟨-, rfl⟩ | ⟨-, rfl⟩ | ⟨-, rfl⟩ := h
    · exact .inl (by simp)
    · exact .inl (by simp)
    · exact .inr ⟨.busTransportError, by simp⟩
  · obtain ⟨-, rfl⟩ | ⟨-, rfl⟩ := h <;> exact .inl rfl
  · obtain ⟨-, rfl⟩ | ⟨-, rfl⟩ | ⟨b, -, -, rfl⟩ | ⟨b, -, -, rfl⟩ := h
    · exact .inl (by simp)
    · exact .inr ⟨.busTransportError, by simp⟩
    · exact .inr ⟨.wakeFailed, by simp⟩
    · exact .inl (by simp)
  · exact .inr ⟨_, rfl⟩

/-- Settles O23: `accept` clears `CRCOK`, a completion sets it with the report of a match, and what ends a
wake keeps it. -/
theorem crcokMeansMatch : Obligations.CrcokMeansMatch := by
  refine ⟨fun s => statusCrcok_accept s.status, fun i s t hs h => ?_, fun s t hs h => ?_, fun s t hs hrst h => ?_⟩
  · by_cases hi : i = .wake
    · subst hi
      obtain rfl := exec_wake_open hs h
      simp [statusCrcok_accept, comparesAndMatches]
    · obtain ⟨b, out, hb, hmatch, rfl⟩ := exec_completes hi hs h
      exact (done_crcok hb s out _).trans hmatch
  · obtain rfl := next_of_execBadRequest_open hs h
    simp [statusCrcok_finish, statusCrcok_accept]
  · rw [step_wake hrst hs] at h
    obtain hst | ⟨e, hst⟩ := wakeStep_status h
    · rw [hst, State.takeInput_status]
    · rw [hst, statusCrcok_finish, State.takeInput_status]

/-- Settles O26: `checksummed` names the bytes of a completion's checksum; WAKE and its transitions compute
none. -/
theorem crcHoldsLastComputation : Obligations.CrcHoldsLastComputation := by
  refine ⟨fun i s t hs h => ?_, fun s t h => ?_, fun s t hs hrst h => ?_⟩
  · by_cases hi : i = .wake
    · subst hi
      obtain rfl := exec_wake_open hs h
      rfl
    · obtain ⟨b, out, -, -, rfl⟩ := exec_completes hi hs h
      cases checksummed i <;> rfl
  · cases hb : s.busy with
    | true =>
      rw [execBadRequest, request_held _ hb] at h
      exact congrArg State.crc (Host.Outcome.next.inj h).symm
    | false => rw [next_of_execBadRequest_open hb h]; rfl
  · rw [step_wake hrst hs] at h
    obtain ⟨hcrc, -, -⟩ := wakeStep_frame h
    exact hcrc

/-- Settles O27: a held instruction changes nothing, and an accepted one the elements of a completion, or
those WAKE writes. -/
theorem instructionFrame : Obligations.InstructionFrame := by
  intro i s t h
  cases hs : s.busy with
  | true => rw [next_of_exec_busy hs h]; simp
  | false =>
    by_cases hi : i = .wake
    · subst hi
      obtain rfl := exec_wake_open hs h
      simp [statusReserved_accept]
    · obtain ⟨b, out, hb, -, rfl⟩ := exec_completes hi hs h
      exact ⟨rfl, rfl, rfl, rfl, done_reserved hb s out _, fun _ => ⟨rfl, fun _ => rfl⟩⟩

/-- Settles O19: `accept` and `finish` field by field, and the offer held at a busy block. -/
theorem acceptAndFinishWrites : Obligations.AcceptAndFinishWrites := by
  refine ⟨fun s => ?_, fun s e => ⟨rfl, statusErr_finish e _, statusDone_finish e _, statusBusy_finish e _,
    statusCrcok_finish e _, statusReserved_finish e _⟩, fun s i hs => ?_⟩
  · rw [State.accept, acceptStatus_value]; rfl
  · rw [exec_eq_request, request_held _ hs]

/-! ## The statements about requests -/

/-- The decoder reads the descriptor, and of the operands those its operation uses. -/
theorem decode_congr {r r' : Request} (hreq : r'.req = r.req)
    (henc : reqOp r.req = 2#3 → r'.opc = r.opc ∧ r'.p1 = r.p1 ∧ r'.p2 = r.p2)
    (hnexp : reqOp r.req = 3#3 → reqFull r.req = false → r'.nexp = r.nexp)
    (hxlenv : reqOp r.req = 3#3 → reqXlen r.req = true → r'.xlenv = r.xlenv)
    (hdata : reqOp r.req ≠ 4#3 → r'.data = r.data) : decode r' = decode r := by
  have hop {k : Nat} {c : BitVec 3} (hk : (reqOp r.req).toNat = k) (hc : c.toNat = k) : reqOp r.req = c :=
    BitVec.eq_of_toNat_eq (hk.trans hc.symm)
  simp only [decode, hreq]
  split
  · rfl
  · split
    next h => rw [hdata (by rw [hop (c := 0#3) h rfl]; decide)]
    next h => rw [hdata (by rw [hop (c := 1#3) h rfl]; decide)]
    next h =>
      obtain ⟨ho, h1, h2⟩ := henc (hop (c := 2#3) h rfl)
      rw [ho, h1, h2, hdata (by rw [hop (c := 2#3) h rfl]; decide)]
    next h =>
      have h3 := hop (c := 3#3) h rfl
      have hd := hdata (by rw [h3]; decide)
      simp only [decodeDec, hreq, hd]
      cases hf : reqFull r.req <;> cases reqVal r.req <;> cases hx : reqXlen r.req <;>
        simp [hnexp h3, hxlenv h3, hf, hx]
    next => rfl
    next => rfl

/-- Settles O31: each change leaves the descriptor and every operand that is read. -/
theorem unusedFieldsIgnored : Obligations.UnusedFieldsIgnored := by
  intro r o p n x q d
  refine ⟨fun h => ?_, fun h => ?_, fun h => ?_, fun h => ?_⟩
  · exact decode_congr rfl (fun hop => absurd hop h) (fun _ _ => rfl) (fun _ _ => rfl) (fun _ => rfl)
  · refine decode_congr rfl (fun _ => ⟨rfl, rfl, rfl⟩) (fun hop hf => ?_) (fun _ _ => rfl) (fun _ => rfl)
    exact absurd h (by simp [hop, hf])
  · refine decode_congr rfl (fun _ => ⟨rfl, rfl, rfl⟩) (fun _ _ => rfl) (fun hop hx => ?_) (fun _ => rfl)
    exact absurd h (by simp [hop, hx])
  · exact decode_congr rfl (fun _ => ⟨rfl, rfl, rfl⟩) (fun _ _ => rfl) (fun _ _ => rfl) (fun hop => absurd h hop)

/-- The operation of a request leaves the block busy or done. -/
theorem requestOp_busy_or_done (r : Request) (s : State) :
    (requestOp r s.accept).busy = true ∨ statusDone (requestOp r s.accept).status = true := by
  obtain h | ⟨m, c, b, out, hb, -, -, hdone⟩ := requestOp_cases r
  · rw [h]; exact .inl (statusBusy_accept s.status)
  · rw [hdone]; exact .inr (done_done hb s out _)

/-- A step at an open port accepts the request offered there. -/
theorem step_accepts {s : State} {r : Request} (hrst : s.input.rst = false) (hb : s.busy = false)
    (ho : s.offered = some r) (hr : r.offerable = true) :
    step s = .next (requestOp r s.takeInput.takeOffer.accept) := by
  rw [step_serve hrst hb ho, serve_eq_request hr]; exact request_open _ hb

/-- Settles O33: a wake transition keeps the port, and an open port accepts. -/
theorem requestsHeldWhileBusy : Obligations.RequestsHeldWhileBusy := by
  refine ⟨fun s t hb hrst h => ?_, fun s r hb hrst ho hr => ?_⟩
  · rw [step_wake hrst hb] at h
    obtain ⟨-, hport, -⟩ := wakeStep_frame h
    exact hport
  · obtain ⟨hport, -, -⟩ := requestOp_frame r s.takeInput.takeOffer
    exact ⟨_, step_accepts hrst hb ho hr, hport, requestOp_busy_or_done r _⟩

/-- A wake transition reads the answers and `settle_elapsed` of an input, not the host's action. -/
theorem wakeStep_setOffer (i : Input) (o : Offer) (s : State) :
    wakeStep { i with offer := o } s = wakeStep i s := rfl

/-- Settles O34: neither RST nor a wake transition reads what the host offers. -/
theorem acceptedRequestIsFixed : Obligations.AcceptedRequestIsFixed := by
  intro s t i rest held o hb hins h
  have hinput : s.input = i := by simp [State.input, hins]
  obtain ⟨s', hs'⟩ : ∃ s', s' = { s with port := held, inputs := { i with offer := o } :: rest } := ⟨_, rfl⟩
  have hinput' : s'.input = { i with offer := o } := by rw [hs']; rfl
  have hb' : s'.busy = true := by rw [hs']; exact hb
  have htake : s'.takeInput = { s.takeInput with port := o.apply held } := by
    simp [hs', State.takeInput, State.offered, State.input, hins]
  rw [← hs']
  cases hrst : i.rst with
  | true =>
    rw [step_reset (by rw [hinput, hrst])] at h
    obtain rfl := Host.Outcome.next.inj h
    rw [step_reset (by rw [hinput', hrst]), htake]; rfl
  | false =>
    rw [step_wake (by rw [hinput, hrst]) hb, hinput] at h
    rw [step_wake (by rw [hinput', hrst]) hb', htake, wakeStep_setPort, hinput', wakeStep_setOffer, h]; rfl

/-- Settles O35: such a step only takes the input. -/
theorem idleStepKeepsState : Obligations.IdleStepKeepsState := by
  intro s hrst hb ho
  rw [step_idle hrst hb ho, State.takeInput, ho]

/-- Settles O36: the offered request is served, and an offerable one that decodes is run. -/
theorem stepRunsDecodedRequest : Obligations.StepRunsDecodedRequest := by
  intro s r i hrst hb ho hr hd
  rw [step_serve hrst hb ho, serve_ok hr hd]; rfl

/-- Settles O37: such a request does not fit the request port. -/
theorem overlongDataIsRefused : Obligations.OverlongDataIsRefused := by
  intro s r hrst hb ho hlen
  have hr : r.offerable = false := decide_eq_false (Nat.not_le.mpr hlen)
  rw [step_serve hrst hb ho, serve_refused hr]

/-- Settles O49, by evaluating the reset state. -/
theorem resetValues : Obligations.ResetValues := ⟨rfl, rfl⟩

/-! ## The statements about a run -/

/-- A wake transition adds to the bus traffic at most the request of its position. -/
theorem wakeStep_busLog {i : Input} {s t : State} (h : wakeStep i s = .next t) :
    t.busLog = s.busLog ∨ (s.busOpen = false ∧
      ((s.wstate = .pulse ∧ t.busLog = s.busLog ++ [.transmit Config.wakePulse]) ∨
       (s.wstate = .recv ∧ t.busLog = s.busLog ++ [.receive Config.wakeAckLen]))) := by
  have issued (c : BusCall) : (s.issue c).busLog = s.busLog ∨
      (s.busOpen = false ∧ (s.issue c).busLog = s.busLog ++ [c]) := by
    cases ho : s.busOpen <;> simp [ho]
  obtain ⟨-, rfl⟩ | ⟨hw, u, hu, h⟩ | ⟨-, h⟩ | ⟨hw, u, hu, h⟩ | ⟨-, rfl⟩ := wakeStep_cases h
  · exact .inl rfl
  · have hlog : t.busLog = u.busLog := by obtain ⟨-, rfl⟩ | ⟨-, rfl⟩ | ⟨-, rfl⟩ := h <;> rfl
    rw [hlog, hu]
    exact (issued _).imp_right fun ⟨ho, hc⟩ => ⟨ho, .inl ⟨hw, hc⟩⟩
  · obtain ⟨-, rfl⟩ | ⟨-, rfl⟩ := h <;> exact .inl rfl
  · have hlog : t.busLog = u.busLog := by
      obtain ⟨-, rfl⟩ | ⟨-, rfl⟩ | ⟨b, -, -, rfl⟩ | ⟨b, -, -, rfl⟩ := h <;> rfl
    rw [hlog, hu]
    exact (issued _).imp_right fun ⟨ho, hc⟩ => ⟨ho, .inr ⟨hw, hc⟩⟩
  · exact .inl rfl

/-- Settles O47: only a wake transition touches the bus. -/
theorem busTrafficOnlyInWake : Obligations.BusTrafficOnlyInWake := by
  intro s t h
  obtain ⟨-, rfl⟩ | ⟨-, hb, h⟩ | ⟨-, -, -, rfl⟩ | ⟨-, -, r, -, -, rfl⟩ := step_cases h
  · exact .inl rfl
  · exact (wakeStep_busLog h).imp_right fun hadd => ⟨hb, hadd⟩
  · exact .inl rfl
  · obtain ⟨-, hlog, -⟩ := requestOp_frame r s.takeInput.takeOffer
    exact .inl hlog

theorem Admissible.input {s : State} (hs : Admissible s) : s.input.admissible = true := by
  obtain ⟨-, hins⟩ := hs
  cases h : s.inputs with
  | nil => simp [State.input, h]; decide
  | cons i rest => simpa [State.input, h] using hins i (by simp [h])

theorem Admissible.offered {s : State} (hs : Admissible s) {r : Request} (ho : s.offered = some r) :
    r.offerable = true := by
  have hi := hs.input
  obtain ⟨hport, -⟩ := hs
  unfold State.offered at ho
  simp only [Input.admissible, Bool.and_eq_true] at hi
  obtain ⟨hoffer, -⟩ := hi
  cases h : s.input.offer with
  | keep => rw [h] at ho; exact hport r ho
  | put r' => rw [h] at ho hoffer; cases ho; exact hoffer
  | withdraw => rw [h] at ho; cases ho

theorem admissible_of_ports {s t : State} (hs : Admissible s) (hport : ∀ r, t.port = some r → s.offered = some r)
    (hins : t.inputs = s.inputs.tail) : Admissible t := by
  refine ⟨fun r h => hs.offered (hport r h), fun i h => ?_⟩
  obtain ⟨-, hadm⟩ := hs
  exact hadm i (List.mem_of_mem_tail (hins ▸ h))

/-- A receive answered with at most the bytes asked for stops no wake transition. -/
theorem wakeStep_next_of_admissible {i : Input} (hi : i.admissible = true) (s : State) :
    ∃ t, wakeStep i s = .next t := by
  by_contra hstop
  obtain ⟨n, b, hrx, hlen⟩ := wakeStep_stop (i := i) (s := s) fun t h => hstop ⟨t, h⟩
  simp [Input.admissible, hrx] at hi
  omega

/-- Settles O53: no admissible input stops the wake sequencer, an admissible request is accepted, and the ports
keep nothing but what was admissible. -/
theorem admissibleRunNeverStops : Obligations.AdmissibleRunNeverStops := by
  intro s hs
  cases hrst : s.input.rst with
  | true => exact ⟨_, step_reset hrst, admissible_of_ports hs (fun r h => h) rfl⟩
  | false =>
    cases hb : s.busy with
    | true =>
      obtain ⟨t, h⟩ := wakeStep_next_of_admissible hs.input s.takeInput
      obtain ⟨-, hport, hins⟩ := wakeStep_frame h
      exact ⟨t, (step_wake hrst hb).trans h, admissible_of_ports hs (fun r hr => hport.symm.trans hr) hins⟩
    | false =>
      cases ho : s.offered with
      | none => exact ⟨_, step_idle hrst hb ho, admissible_of_ports hs (fun r h => h) rfl⟩
      | some r =>
        obtain ⟨hport, -, hins⟩ := requestOp_frame r s.takeInput.takeOffer
        refine ⟨_, step_accepts hrst hb ho (hs.offered ho), admissible_of_ports hs (fun r' h => ?_) hins⟩
        rw [hport] at h; cases h

end Sys2Proof.Machine
end

section
/-! PROOFS of the statements of 20_memory.md. A completion writes the same elements whichever completed state
it starts from, so completing the same request again changes nothing. -/

namespace Sys2Proof.Machine
open Claims

/-- Completing a completed state with the same report, `OUT` and `CRC` keeps it: of `STATUS` only bit 7 enters. -/
theorem done_idem (s : State) (b : Byte) (out : Bytes) (c : U16) :
    done (done s b out c) b out c = done s b out c := by
  have hstatus : ((((s.status &&& 0x80#8) ||| b) &&& 0x80#8) ||| b) = (s.status &&& 0x80#8) ||| b := by
    ext k hk
    simp only [BitVec.getElem_or, BitVec.getElem_and]
    cases b[k] <;> simp
  simp only [done, statusWith, hstatus]

/-- Settles O25: the second run completes with the report, `OUT` and checksum of the first, and where no checksum
is computed `CRC` is kept by both. -/
theorem oneStepOperationsIdempotent : Obligations.OneStepOperationsIdempotent := by
  intro i s t hi hs h
  obtain ⟨b, out, hb, -, -, hdone⟩ := completes_opOf hi
  obtain rfl : t = done s b out (((checksummed i).map crc16).getD s.crc) :=
    (next_of_exec_open hs h).trans (hdone s)
  rw [exec_eq_request, request_open _ (done_busy hb s out _), hdone]
  have hcrc : ((checksummed i).map crc16).getD (((checksummed i).map crc16).getD s.crc) =
      ((checksummed i).map crc16).getD s.crc := by
    cases checksummed i <;> rfl
  exact congrArg Host.Outcome.next ((congrArg (done _ b out) hcrc).trans (done_idem s b out _))

end Sys2Proof.Machine
end

section
/-! PROOFS of the statements of 30_encoding.md. The ten legal descriptors are the rows of the opcode table: at
each of them the decoder answers the row's instruction, and it answers nowhere else. -/

namespace Sys2Proof

/-! ## What the decoder answers -/

/-- The ten descriptors that R76 lists. -/
def legalDescriptors : List Byte :=
  [0x00#8, 0x01#8, 0x02#8, 0x03#8, 0x0B#8, 0x23#8, 0x2B#8, 0x1B#8, 0x3B#8, 0x04#8]

theorem legal_iff_mem (b : Byte) : legal b = true ↔ b ∈ legalDescriptors := by
  revert b; decide +kernel

/-! One equation per row of the opcode table: the row's instruction, with the operands of the request. -/

section
variable {r : Request}

theorem decode_crc (h : r.req = 0x00#8) : decode r = .ok (.crc r.data) := by rw [decode, h]; rfl
theorem decode_chk (h : r.req = 0x01#8) : decode r = .ok (.chk r.data) := by rw [decode, h]; rfl
theorem decode_enc (h : r.req = 0x02#8) : decode r = .ok (.enc r.opc r.p1 r.p2 r.data) := by rw [decode, h]; rfl
theorem decode_decFixed (h : r.req = 0x03#8) : decode r = .ok (.decFixed r.data r.nexp) := by
  rw [decode, decodeDec, h]; rfl
theorem decode_decFixedVal (h : r.req = 0x0B#8) : decode r = .ok (.decFixedVal r.data r.nexp) := by
  rw [decode, decodeDec, h]; rfl
theorem decode_decFixedXlen (h : r.req = 0x23#8) : decode r = .ok (.decFixedXlen r.data r.nexp r.xlenv) := by
  rw [decode, decodeDec, h]; rfl
theorem decode_decFixedValXlen (h : r.req = 0x2B#8) : decode r = .ok (.decFixedValXlen r.data r.nexp r.xlenv) := by
  rw [decode, decodeDec, h]; rfl
theorem decode_decFull (h : r.req = 0x1B#8) : decode r = .ok (.decFull r.data) := by
  rw [decode, decodeDec, h]; rfl
theorem decode_decFullXlen (h : r.req = 0x3B#8) : decode r = .ok (.decFullXlen r.data r.xlenv) := by
  rw [decode, decodeDec, h]; rfl
theorem decode_wake (h : r.req = 0x04#8) : decode r = .ok .wake := by rw [decode, h]; rfl

end

/-- At a legal descriptor the decoder answers an instruction with this descriptor and no longer `DATA`. -/
theorem exists_decode_of_legal {r : Request} (hl : legal r.req = true) :
    ∃ i, decode r = .ok i ∧ (encode i).req = r.req ∧ (r.offerable = true → i.wellFormed = true) := by
  have hmem : r.req ∈ legalDescriptors := (legal_iff_mem r.req).mp hl
  simp only [legalDescriptors, List.mem_cons, List.not_mem_nil, or_false] at hmem
  obtain h | h | h | h | h | h | h | h | h | h := hmem
  · exact ⟨_, decode_crc h, h.symm, id⟩
  · exact ⟨_, decode_chk h, h.symm, id⟩
  · exact ⟨_, decode_enc h, h.symm, id⟩
  · exact ⟨_, decode_decFixed h, h.symm, id⟩
  · exact ⟨_, decode_decFixedVal h, h.symm, id⟩
  · exact ⟨_, decode_decFixedXlen h, h.symm, id⟩
  · exact ⟨_, decode_decFixedValXlen h, h.symm, id⟩
  · exact ⟨_, decode_decFull h, h.symm, id⟩
  · exact ⟨_, decode_decFullXlen h, h.symm, id⟩
  · exact ⟨_, decode_wake h, h.symm, fun _ => rfl⟩

/-- An operation other than DEC is answered with every flag bit 0 only. -/
theorem flags_of_decodeUnflagged {b : Byte} {i j : Instr} (h : decodeUnflagged b i = .ok j) :
    (reqVal b || reqFull b || reqXlen b) = false := by
  unfold decodeUnflagged at h
  split at h
  · cases h
  next hflags => exact Bool.eq_false_of_not_eq_true hflags

/-- A DEC in full mode is answered with `VAL = 1` only (R73). -/
theorem val_of_decodeDec {r : Request} {i : Instr} (h : decodeDec r = .ok i) (hf : reqFull r.req = true) :
    reqVal r.req = true := by
  cases hv : reqVal r.req with
  | true => rfl
  | false => simp [decodeDec, hf, hv] at h

/-- The decoder answers at legal descriptors only: its tests are those of `legal`, field by field. -/
theorem legal_of_decode {r : Request} {i : Instr} (h : decode r = .ok i) : legal r.req = true := by
  refine (legal_iff_fields r.req).mpr ?_
  unfold decode at h
  split at h
  · cases h
  next hres =>
    refine ⟨by simpa using hres, ?_⟩
    split at h
    next hop => exact .inl ⟨by simp [hop], flags_of_decodeUnflagged h⟩
    next hop => exact .inl ⟨by simp [hop], flags_of_decodeUnflagged h⟩
    next hop => exact .inl ⟨by simp [hop], flags_of_decodeUnflagged h⟩
    next hop => exact .inr ⟨hop, val_of_decodeDec h⟩
    next hop => exact .inl ⟨by simp [hop], flags_of_decodeUnflagged h⟩
    next => cases h

theorem exists_reject_of_illegal {r : Request} (h : legal r.req = false) : ∃ e, decode r = .error e := by
  cases hd : decode r with
  | error e => exact ⟨e, rfl⟩
  | ok i => exact absurd (legal_of_decode hd) (by simp [h])

/-! ## Decode of encode -/

/-- The encoder carries the instruction's `DATA`, and an empty one for WAKE. -/
theorem encode_offerable (i : Instr) : (encode i).offerable = i.wellFormed := by
  cases i <;> rfl

/-- The encoder's descriptor is that of the instruction's row, and its operands stand where the row reads them. -/
theorem decode_encode (i : Instr) : decode (encode i) = .ok i := by
  cases i with
  | crc data => exact decode_crc rfl
  | chk data => exact decode_chk rfl
  | enc opc p1 p2 data => exact decode_enc rfl
  | decFixed data n => exact decode_decFixed rfl
  | decFixedVal data n => exact decode_decFixedVal rfl
  | decFixedXlen data n x => exact decode_decFixedXlen rfl
  | decFixedValXlen data n x => exact decode_decFixedValXlen rfl
  | decFull data => exact decode_decFull rfl
  | decFullXlen data x => exact decode_decFullXlen rfl
  | wake => exact decode_wake rfl

theorem encode_injective : Function.Injective encode := fun i j h =>
  Except.ok.inj <| calc
    .ok i = decode (encode i) := (decode_encode i).symm
    _ = decode (encode j) := congrArg decode h
    _ = .ok j := decode_encode j

end Sys2Proof

namespace Sys2Proof.Machine
open Claims

/-- Settles O30: the encoding is read back, so it is injective, and what decodes has a legal descriptor, at
which the decoder's answer is known. -/
theorem decodeEncodeAgree : Obligations.DecodeEncodeAgree := by
  refine ⟨fun i => ⟨decode_encode i, (encode_offerable i).trans⟩, fun r i hd => ?_,
    fun _ _ h => encode_injective h⟩
  obtain ⟨j, hj, hreq, hfits⟩ := exists_decode_of_legal (legal_of_decode hd)
  obtain rfl : i = j := Except.ok.inj (hd.symm.trans hj)
  exact ⟨hreq, hfits⟩

/-- Settles O28: the ten values are those of `legal`, and the decoder tests the same fields. -/
theorem exactlyTenLegalDescriptors : Obligations.ExactlyTenLegalDescriptors := by
  refine ⟨legal_iff_mem, fun r => ⟨fun h => ?_, fun ⟨_, hd⟩ => legal_of_decode hd⟩⟩
  obtain ⟨i, hd, -, -⟩ := exists_decode_of_legal h
  exact ⟨i, hd⟩

/-- The completion of an accepted request with a code and no output. -/
theorem finish_accept_eq_done (s : State) (e : ErrCode) :
    s.accept.finish e = done s (0x10#8 ||| e.code.setWidth 8) [] s.crc := by
  simp only [State.finish, State.accept, status_of_finish_accept]; rfl

/-- Settles O32: the decoder rejects the request, and its completion is BadRequest's. -/
theorem illegalDescriptorIsBadRequest : Obligations.IllegalDescriptorIsBadRequest := by
  intro s r hrst hb ho hr hl
  obtain ⟨e, hd⟩ := exists_reject_of_illegal hl
  have hop : requestOp r = State.finish .badRequest := by rw [requestOp, hd]
  rw [step_accepts hrst hb ho hr, hop, finish_accept_eq_done]; rfl

/-- Settles O29, by decoding each word. -/
theorem tableWordsDecode : Obligations.TableWordsDecode := ⟨rfl, rfl, rfl, rfl, rfl, rfl⟩

end Sys2Proof.Machine
end

section
/-! PROOFS of the statements of 40_checksum.md. A step of the register is linear and injective in the register and
in the byte, so two sequences that differ in one byte have different checksums; and a valid sequence is a message
followed by its checksum, so a change of one byte is either in a message or in the checksum of the same message. -/

namespace Sys2Proof.Machine
open Claims

/-! ## Wire pairs -/

theorem lo8_toNat (c : U16) : (lo8 c).toNat = c.toNat % 256 := by simp [lo8]

theorem hi8_toNat (c : U16) : (hi8 c).toNat = c.toNat / 256 := by
  have := c.isLt
  simp only [hi8, BitVec.extractLsb'_toNat, Nat.shiftRight_eq_div_pow]; omega

theorem wireNumber_toNat (b0 b1 : Byte) : (wireNumber b0 b1).toNat = b0.toNat + 256 * b1.toNat := by
  have := b0.isLt
  have := b1.isLt
  simp only [wireNumber, BitVec.toNat_add, BitVec.toNat_mul, BitVec.toNat_setWidth, BitVec.toNat_ofNat]; omega

theorem wireBytes_wireNumber (b0 b1 : Byte) : wireBytes (wireNumber b0 b1) = [b0, b1] := by
  have := b0.isLt
  have hlo : lo8 (wireNumber b0 b1) = b0 :=
    BitVec.eq_of_toNat_eq (by rw [lo8_toNat, wireNumber_toNat]; omega)
  have hhi : hi8 (wireNumber b0 b1) = b1 :=
    BitVec.eq_of_toNat_eq (by rw [hi8_toNat, wireNumber_toNat]; omega)
  rw [wireBytes, hlo, hhi]

theorem crcBytes_injective : Function.Injective crcBytes := fun c c' h => by
  obtain ⟨hlo, htail⟩ := List.cons.inj h
  obtain ⟨hhi, -⟩ := List.cons.inj htail
  rw [← wireNumber_wireBytes c, hlo, hhi, wireNumber_wireBytes]

/-! ## Steps of the register -/

/-- The taps of the polynomial. -/
theorem getLsbD_crcPoly {i : Nat} (h : i < 16) :
    Config.crcPoly.getLsbD i = (i == 0 || i == 2 || i == 15) := by
  revert i; decide

theorem getLsbD_crcBit (r : U16) (d : Bool) {i : Nat} (h : i < 16) :
    (crcBit r d).getLsbD i =
      ((decide (0 < i) && r.getLsbD (i - 1)) ^^ ((d ^^ r.getLsbD 15) && (i == 0 || i == 2 || i == 15))) := by
  have hshift : (r <<< 1).getLsbD i = (decide (0 < i) && r.getLsbD (i - 1)) := by
    rw [BitVec.getLsbD_shiftLeft]; cases i <;> simp [h]
  have hbit : crcBit r d = if d ^^ r.getLsbD 15 then r <<< 1 ^^^ Config.crcPoly else r <<< 1 := rfl
  rw [hbit, ← hshift, ← getLsbD_crcPoly h]
  cases d ^^ r.getLsbD 15 <;> simp

/-- Bit 0 of the next register gives the top bit back, and the other bits are those of the old register but for
the feedback, which is known then. -/
theorem crcBit_injective (d : Bool) : Function.Injective (crcBit · d) := fun r r' h => by
  have hbit : ∀ i, i < 16 → (crcBit r d).getLsbD i = (crcBit r' d).getLsbD i := fun i _ =>
    congrArg (·.getLsbD i) h
  have htop : r.getLsbD 15 = r'.getLsbD 15 := by
    have h0 := hbit 0 (by omega)
    rw [getLsbD_crcBit r d (by omega), getLsbD_crcBit r' d (by omega)] at h0
    simpa using h0
  refine BitVec.eq_of_getLsbD_eq fun i hi => ?_
  by_cases h15 : i = 15
  · rw [h15, htop]
  · have := hbit (i + 1) (by omega)
    rw [getLsbD_crcBit r d (by omega), getLsbD_crcBit r' d (by omega), htop] at this
    simpa using this

theorem crcByte_xor (r r' : U16) (b b' : Byte) :
    crcByte (r ^^^ r') (b ^^^ b') = crcByte r b ^^^ crcByte r' b' := by
  simp only [crcByte_bits, BitVec.getLsbD_xor, crcBit_xor]

theorem crcByte_register_injective (b : Byte) : Function.Injective (crcByte · b) := fun r r' h => by
  simp only [crcByte_bits] at h
  iterate 8 replace h := crcBit_injective _ h
  exact h

/-- From register 0 only the zero byte leaves register 0. -/
theorem eq_zero_of_crcByte_zero {b : Byte} (h : crcByte 0#16 b = 0#16) : b = 0#8 := by
  revert b; decide +kernel

theorem crcByte_byte_injective (r : U16) : Function.Injective (crcByte r) := fun b b' h => by
  have hdiff : crcByte 0#16 (b ^^^ b') = 0#16 := by
    rw [← BitVec.xor_self (x := r), crcByte_xor, h, BitVec.xor_self, BitVec.xor_self]
  exact BitVec.xor_eq_zero_iff.mp (eq_zero_of_crcByte_zero hdiff)

/-! ## The checksum of a sequence -/

theorem foldl_crcByte_injective (s : Bytes) : Function.Injective (s.foldl crcByte) := by
  induction s with
  | nil => exact fun _ _ h => h
  | cons b s ih => exact fun _ _ h => crcByte_register_injective b (ih h)

theorem foldl_crcByte_xor (r r' : U16) {a b : Bytes} (h : a.length = b.length) :
    (List.zipWith (· ^^^ ·) a b).foldl crcByte (r ^^^ r') = a.foldl crcByte r ^^^ b.foldl crcByte r' := by
  induction a generalizing b r r' with
  | nil => obtain rfl := List.length_eq_zero_iff.mp h.symm; rfl
  | cons x a ih =>
    obtain ⟨y, b, rfl⟩ := List.exists_cons_of_length_eq_add_one h.symm
    simp only [List.zipWith_cons_cons, List.foldl_cons, crcByte_xor]
    exact ih _ _ (Nat.succ.inj h)

/-- Sequences that differ in one byte have different checksums. -/
theorem eq_of_crc16_change {pre post : Bytes} {b b' : Byte}
    (h : crc16 (pre ++ b :: post) = crc16 (pre ++ b' :: post)) : b = b' := by
  simp only [crc16_append, List.foldl_cons] at h
  exact crcByte_byte_injective _ (foldl_crcByte_injective post h)

theorem crc16_zero_cons (s : Bytes) : crc16 (0x00#8 :: s) = crc16 s := rfl

theorem crc16_replicate_zero (n : Nat) : crc16 (List.replicate n 0x00#8) = 0x0000#16 := by
  induction n with
  | zero => rfl
  | succ n ih => rw [List.replicate_succ, crc16_zero_cons, ih]

/-! ## Validation -/

/-- A valid sequence is a message of at least one byte and its checksum (R105). -/
theorem valid_iff (s : Bytes) : valid s = true ↔ ∃ m, m ≠ [] ∧ s = m ++ crcBytes (crc16 m) := by
  constructor
  · intro h
    have hlen := length_of_valid h
    rw [valid_of_length hlen, beq_iff_eq] at h
    refine ⟨body s, ?_, by rw [← h, body_trailer]⟩
    simp only [body_eq_take, ne_eq, ← List.length_eq_zero_iff, List.length_take]; omega
  · rintro ⟨m, hm, rfl⟩
    exact (valid_append m _ _).trans (by simp [hm, crcBytes, wireBytes])

theorem drop_eq_of_valid {s : Bytes} (h : valid s = true) :
    s.drop (s.length - 2) = crcBytes (crc16 (s.take (s.length - 2))) := by
  obtain ⟨m, -, rfl⟩ := (valid_iff s).mp h
  simp [crcBytes_length]

/-- A change of one byte is found (R106): a changed message has another checksum, and an unchanged message has one
checksum only. -/
theorem valid_change {pre post : Bytes} {b b' : Byte} (hne : b ≠ b') (h : valid (pre ++ b :: post) = true) :
    valid (pre ++ b' :: post) = false := by
  refine Bool.eq_false_iff.mpr fun h' => hne ?_
  have hsum := drop_eq_of_valid h
  have hsum' := drop_eq_of_valid h'
  have hlen : (pre ++ b' :: post).length = (pre ++ b :: post).length := by simp
  rw [hlen] at hsum'
  generalize (pre ++ b :: post).length - 2 = n at hsum hsum'
  obtain hn | hn := Nat.lt_or_ge pre.length n
  case inl =>
    obtain ⟨k, rfl⟩ := Nat.exists_eq_add_of_lt hn
    rw [Nat.add_assoc, List.drop_length_add_append, List.take_length_add_append] at hsum hsum'
    exact eq_of_crc16_change (crcBytes_injective (hsum.symm.trans hsum'))
  case inr =>
    rw [List.drop_append_of_le_length hn, List.take_append_of_le_length hn] at hsum hsum'
    exact (List.cons.inj (List.append_cancel_left (hsum.trans hsum'.symm))).1

/-! ## What CRC, CHK, ENC and a checked envelope complete with -/

theorem exec_eq_next {i : Instr} {s t : State} (hs : s.busy = false) (h : opOf i s.accept = t) :
    exec i s = .next t := by
  rw [exec_eq_request, request_open _ hs, h]

theorem crc_deliver_accept (s : State) (c : U16) (out : Bytes) :
    State.deliver out { s.accept with crc := c } = done s 0x10#8 out c := by
  simp only [State.deliver, State.finish, State.accept, status_of_finish_accept]; rfl

theorem crcOp_accept (data : Bytes) (s : State) :
    crcOp data s.accept = done s 0x10#8 (crcBytes (crc16 data)) (crc16 data) := crc_deliver_accept s _ _

theorem chkOp_accept (data : Bytes) (s : State) :
    chkOp data s.accept = done s (if valid data then 0x50#8 else 0x10#8) []
      (if 3 ≤ data.length then sumOf data else s.crc) := by
  by_cases h : data.length < 3
  · rw [chkOp, if_pos h, finish_accept_eq_done, valid, if_pos h, if_neg (Nat.not_le_of_lt h)]; rfl
  · rw [chkOp, if_neg h, valid_of_length (Nat.le_of_not_lt h), if_pos (Nat.le_of_not_lt h), body_eq_take]
    simp only [State.finish, State.accept, finish_setCrcok_accept_value]; rfl

theorem encOp_accept (opc p1 : Byte) (p2 : U16) {data : Bytes} (h : data.length ≤ 248) (s : State) :
    encOp opc p1 p2 data s.accept =
      done s 0x10#8 (Config.cmdHeader :: (frameBody opc p1 p2 data ++ crcBytes (crc16 (frameBody opc p1 p2 data))))
        (crc16 (frameBody opc p1 p2 data)) :=
  (if_neg (Nat.not_lt.mpr h)).trans (crc_deliver_accept s _ _)

/-- An envelope that is not valid is not delivered (R158). -/
theorem checkedDeliver_accept_of_invalid {env : Bytes} (henv : 3 ≤ env.length) (h : valid env = false)
    (payload : Bytes) (s : State) :
    checkedDeliver env payload s.accept = done s 0x14#8 [] (sumOf env) := by
  rw [valid_of_length henv] at h
  obtain ⟨-, heq⟩ | ⟨hmatch, -⟩ := checkedDeliver_cases env payload s.accept
  · rw [heq, body_eq_take]
    simp only [State.accept, status_of_finish_accept]; rfl
  · simp [hmatch] at h

/-- DEC in full mode where byte 0 is the length of the buffer: the whole buffer is the envelope. -/
theorem decFullOp_whole {b : Byte} {rest : Bytes} (hlen : (b :: rest).length = b.toNat) (hmin : 3 ≤ b.toNat)
    (s : State) :
    decFullOp none (b :: rest) s = checkedDeliver (b :: rest) (slice (b :: rest) 1 (b.toNat - 2)) s := by
  have hfloor : ¬ b.toNat < Config.respOverhead := Nat.not_lt.mpr hmin
  have hshort : ¬ (b :: rest).length < b.toNat := Nat.not_lt.mpr hlen.ge
  simp only [decFullOp, lengthByteDiffers, hfloor, hshort, slice_zero, List.take_of_length_le hlen.le,
    Bool.false_eq_true, if_false]

/-- Byte 0 of a frame is the length of the frame with its checksum (R131). -/
theorem frameBody_length_byte (opc p1 : Byte) (p2 : U16) {data : Bytes} (h : data.length ≤ 248) :
    ∃ L rest, frameBody opc p1 p2 data = L :: rest ∧ L.toNat = rest.length + 3 ∧ 3 ≤ L.toNat := by
  refine ⟨_, _, rfl, ?_, ?_⟩ <;> simp [Config.cmdOverhead, wireBytes_length] <;> omega

/-! ## The statements -/

/-- Settles O1. -/
theorem crcBitIsShiftWithTaps : Obligations.CrcBitIsShiftWithTaps := fun r d _ h => getLsbD_crcBit r d h

/-- Settles O2: both are the eight bit steps in a row. -/
theorem crcByteTakesBitZeroFirst : Obligations.CrcByteTakesBitZeroFirst := crcByte_bits

/-- Settles O3. -/
theorem checksumFoldsBytesInOrder : Obligations.ChecksumFoldsBytesInOrder :=
  ⟨rfl, fun s b => crc16_append s [b]⟩

/-- Settles O4. -/
theorem wirePairIsLowByteFirst : Obligations.WirePairIsLowByteFirst :=
  ⟨fun c => ⟨lo8 c, hi8 c, rfl, rfl, lo8_toNat c, hi8_toNat c⟩,
    fun b0 b1 => ⟨wireNumber_toNat b0 b1, wireBytes_wireNumber b0 b1⟩⟩

/-- Settles O5: the message of `valid_iff` is not empty exactly where the sequence has 3 bytes. -/
theorem validIffTrailingChecksum : Obligations.ValidIffTrailingChecksum := by
  refine fun s => ⟨fun h => ?_, ?_⟩
  · obtain ⟨m, -, hs⟩ := (valid_iff s).mp h
    exact ⟨length_of_valid h, m, _, _, hs, rfl, rfl⟩
  · rintro ⟨hlen, m, a, b, rfl, rfl, rfl⟩
    refine (valid_iff _).mpr ⟨m, ?_, rfl⟩
    rintro rfl
    exact absurd hlen (by decide)

/-- Settles O6: the register starts at 0, which a zero byte keeps, and its steps are linear; (d) is refuted by
the sequences `[]` and `[1]`. -/
theorem checksumLaws : Obligations.ChecksumLaws := by
  refine ⟨rfl, crc16_zero_cons, fun a b h => foldl_crcByte_xor 0#16 0#16 h, by decide +kernel,
    by decide +kernel, by decide +kernel, ?_⟩
  rintro ⟨c, hc⟩
  have hne : crc16 ([] ++ crcBytes (crc16 [])) ≠ crc16 ([0x01#8] ++ crcBytes (crc16 [0x01#8])) := by
    decide +kernel
  exact hne ((hc []).trans (hc [0x01#8]).symm)

/-- Settles O7. -/
theorem checksumSelfConsistent : Obligations.ChecksumSelfConsistent :=
  ⟨fun s hs => (valid_iff _).mpr ⟨s, List.ne_nil_of_length_pos hs, rfl⟩, rfl⟩

/-- CRC has one legal descriptor (R76). -/
theorem illegal_of_reqOp_zero {b : Byte} (hop : reqOp b = 0#3) (hb : b ≠ 0x00#8) : legal b = false := by
  revert b; decide +kernel

/-- Settles O8: CRC completes with its checksum, and every other descriptor with its OP is illegal. -/
theorem crcOperation : Obligations.CrcOperation := by
  refine ⟨fun _ => decode_crc, fun s data hs => exec_eq_next hs (crcOp_accept data s), rfl,
    crc16_replicate_zero, by decide +kernel, by decide +kernel, fun s r hs hr hop hreq => ?_⟩
  obtain ⟨e, hd⟩ := exists_reject_of_illegal (illegal_of_reqOp_zero hop hreq)
  rw [serve_illegal hr hd, execBadRequest, request_open _ hs, finish_accept_eq_done]; rfl

/-- Settles O9: CHK completes with the verdict of `valid`, which finds every change of one byte. -/
theorem chkOperation : Obligations.ChkOperation :=
  ⟨fun _ => decode_chk, fun s data hs => exec_eq_next hs (chkOp_accept data s), fun data h => if_pos h,
    by decide +kernel, by decide +kernel, by decide +kernel, fun _ _ _ _ => valid_change⟩

/-- Settles O18: the frame without its header is valid and its byte 0, which is unchanged, is its length, so the
whole changed buffer is checked and is not valid. -/
theorem corruptedFrameIsNotDelivered : Obligations.CorruptedFrameIsNotDelivered := by
  intro s t u opc p1 p2 data pre post b b' hs hu hdata henc hout hpre hne
  obtain ⟨L, rest, hframe, hL, hmin⟩ := frameBody_length_byte opc p1 p2 hdata
  obtain ⟨x, pre, rfl⟩ := List.exists_cons_of_ne_nil hpre
  have henv : L :: rest ++ crcBytes (crc16 (L :: rest)) = x :: pre ++ b :: post := by
    rw [next_of_exec_open hs henc] at hout
    rw [← hout, ← hframe]
    exact congrArg (fun s : State => s.out.drop 1) (encOp_accept opc p1 p2 hdata s).symm
  have hvalid : valid (x :: pre ++ b :: post) = true := (valid_iff _).mpr ⟨_, List.cons_ne_nil L rest, henv.symm⟩
  have hlen : (x :: pre ++ b' :: post).length = L.toNat := by
    have := congrArg List.length henv
    simp only [List.length_append, List.length_cons, crcBytes_length] at *; omega
  obtain rfl : L = x := (List.cons.inj henv).1
  have hinvalid : valid (L :: pre ++ b' :: post) = false := valid_change hne hvalid
  exact ⟨_, exec_eq_next hu <| (decFullOp_whole hlen hmin u.accept).trans <|
    checkedDeliver_accept_of_invalid (hlen ▸ hmin) hinvalid _ u⟩

end Sys2Proof.Machine
end

section
/-! PROOFS of the statements of 41_encoder.md. A frame is the header before an envelope: the frame body, whose byte 0
is the length of the envelope, and its checksum. DEC in full mode reads that length, checks the whole envelope, which
is valid, and delivers the bytes between the length byte and the checksum. -/

namespace Sys2Proof.Machine
open Claims

/-! ## Envelopes -/

/-- The middle of three pieces, by the places where it begins and ends. -/
theorem slice_append_middle (a b c : Bytes) : slice (a ++ (b ++ c)) a.length (a.length + b.length) = b := by
  simp [slice]

/-- A slice that ends where the sequence ends, or beyond. -/
theorem slice_eq_drop {s : Bytes} {i j : Nat} (h : s.length ≤ j) : slice s i j = s.drop i :=
  List.take_of_length_le (by simp only [List.length_drop]; omega)

theorem valid_append_checksum {m : Bytes} (h : m ≠ []) : valid (m ++ crcBytes (crc16 m)) = true :=
  (valid_iff _).mpr ⟨m, h, rfl⟩

/-- The checksum field of a message covers the message. -/
theorem sumOf_append_crcBytes (m : Bytes) (c : U16) : sumOf (m ++ crcBytes c) = crc16 m := by
  simp [sumOf, crcBytes_length]

/-- An envelope that is valid is delivered (R158). -/
theorem checkedDeliver_accept_of_valid {env : Bytes} (h : valid env = true) (payload : Bytes) (s : State) :
    checkedDeliver env payload s.accept = done s 0x50#8 payload (sumOf env) := by
  rw [valid_of_length (length_of_valid h)] at h
  obtain ⟨hmismatch, -⟩ | ⟨-, heq⟩ := checkedDeliver_cases env payload s.accept
  · simp [hmismatch] at h
  · rw [heq, body_eq_take]
    simp only [State.accept, finish_setCrcok_accept_value]; rfl

/-- DEC in full mode of an envelope: a length byte that counts the whole, a payload, and their checksum. -/
theorem decFullOp_accept_envelope {L : Byte} {payload : Bytes} (hL : L.toNat = payload.length + 3) (s : State) :
    decFullOp none (L :: (payload ++ crcBytes (crc16 (L :: payload)))) s.accept =
      done s 0x50#8 payload (crc16 (L :: payload)) := by
  have hlen : (L :: (payload ++ crcBytes (crc16 (L :: payload)))).length = L.toNat := by
    simp [crcBytes_length, hL]
  have hpayload : slice (L :: (payload ++ crcBytes (crc16 (L :: payload)))) 1 (L.toNat - 2) = payload := by
    rw [show L.toNat - 2 = 1 + payload.length by omega]
    exact slice_append_middle [L] payload _
  have hvalid : valid (L :: (payload ++ crcBytes (crc16 (L :: payload)))) = true :=
    valid_append_checksum (List.cons_ne_nil L payload)
  rw [decFullOp_whole hlen (by omega), hpayload, checkedDeliver_accept_of_valid hvalid]
  exact congrArg (done s 0x50#8 payload) (sumOf_append_crcBytes (L :: payload) _)

/-! ## The frame ENC builds -/

/-- The length byte has not wrapped (R131). -/
theorem lengthByte_toNat {data : Bytes} (h : data.length ≤ 248) :
    (BitVec.ofNat 8 (7 + data.length)).toNat = 7 + data.length := Nat.mod_eq_of_lt (by omega)

/-- The frame with its checksum has as many bytes as its length byte says (R131). -/
theorem frame_length (opc p1 : Byte) (p2 : U16) (data : Bytes) :
    (frameBody opc p1 p2 data ++ crcBytes (crc16 (frameBody opc p1 p2 data))).length = 7 + data.length := by
  simp [frameBody, crcBytes_length]; omega

/-- What an ENC that is not refused completes with (R130). -/
theorem next_of_exec_enc {s t : State} {opc p1 : Byte} {p2 : U16} {data : Bytes} (hs : s.busy = false)
    (hlen : data.length ≤ 248) (h : exec (.enc opc p1 p2 data) s = .next t) :
    t = done s 0x10#8 (Config.cmdHeader :: (frameBody opc p1 p2 data ++ crcBytes (crc16 (frameBody opc p1 p2 data))))
      (crc16 (frameBody opc p1 p2 data)) :=
  (next_of_exec_open hs h).trans (encOp_accept opc p1 p2 hlen s)

/-- A payload whose frame length does not fit the length byte is refused (R131). -/
theorem encOp_accept_of_overlong (opc p1 : Byte) (p2 : U16) {data : Bytes} (h : 248 < data.length) (s : State) :
    encOp opc p1 p2 data s.accept = done s 0x16#8 [] s.crc :=
  (if_pos h).trans (finish_accept_eq_done s .badRequest)

/-- An ENC that ends OK had a payload that fits, since the refusal reports BadRequest. -/
theorem length_le_of_enc_ok {s t : State} {opc p1 : Byte} {p2 : U16} {data : Bytes} (hs : s.busy = false)
    (h : exec (.enc opc p1 p2 data) s = .next t) (hok : statusErr t.status = 0#4) : data.length ≤ 248 := by
  by_contra hlen
  obtain rfl := (next_of_exec_open hs h).trans (encOp_accept_of_overlong opc p1 p2 (Nat.lt_of_not_le hlen) s)
  exact absurd ((statusErr_masked s.status 0x16#8).symm.trans hok) (by decide)

/-! ## The statements -/

/-- Settles O10: ENC completes with the frame, or refuses. -/
theorem encOperation : Obligations.EncOperation :=
  ⟨fun _ => decode_enc, fun s opc p1 p2 _ hs =>
    ⟨fun hlen => ⟨_, _, lengthByte_toNat hlen, rfl, exec_eq_next hs (encOp_accept opc p1 p2 hlen s)⟩,
      fun hlen => exec_eq_next hs (encOp_accept_of_overlong opc p1 p2 hlen s), by decide +kernel⟩⟩

/-- Settles O11: the payload of an ENC that ends OK fits, so `OUT` is the header, the frame and its checksum. -/
theorem encFrameDescribesItself : Obligations.EncFrameDescribesItself := by
  intro s t opc p1 p2 data hs henc hok
  have hlen := length_le_of_enc_ok hs henc hok
  obtain rfl := next_of_exec_enc hs hlen henc
  have hL := lengthByte_toNat hlen
  refine ⟨⟨BitVec.ofNat 8 (7 + data.length), rfl, ?_, hL⟩, rfl, rfl, rfl, rfl, ?_, ?_⟩
  · exact hL.trans (frame_length opc p1 p2 data).symm
  · exact slice_append_middle [Config.cmdHeader, BitVec.ofNat 8 (7 + data.length), opc, p1, lo8 p2, hi8 p2] data _
  · have hend := frame_length opc p1 p2 data
    rw [slice_eq_drop (by simp only [done, List.length_cons]; omega)]
    exact valid_append_checksum (List.cons_ne_nil _ _)

/-- Settles O17: what follows the header is an envelope. -/
theorem encodedFrameDecodes : Obligations.EncodedFrameDecodes := by
  intro s t u opc p1 p2 data hs hu hlen henc
  obtain rfl := next_of_exec_enc hs hlen henc
  have hL : (BitVec.ofNat 8 (7 + data.length)).toNat = ([opc, p1, lo8 p2, hi8 p2] ++ data).length + 3 := by
    rw [lengthByte_toNat hlen]; simp; omega
  exact exec_eq_next hu (decFullOp_accept_envelope hL u)

end Sys2Proof.Machine
end

section
/-! PROOFS of the statements of 42_decoder.md. Each mode has one equation per outcome of its checks, in their order
(R151); a passed length byte test leaves the operation without one, and a checked envelope ends OK exactly where it is
valid. -/

namespace Sys2Proof.Machine
open Claims

/-! ## The operands of DEC -/

theorem slice_payload (data : Bytes) (n : Nat) : slice data 1 (1 + n) = payloadOf data n := by
  rw [slice, payloadOf, Nat.add_sub_cancel_left]

/-- A slice that ends within the first of two pieces. -/
theorem slice_append_left {a : Bytes} {j : Nat} (h : j ≤ a.length) (b : Bytes) (i : Nat) :
    slice (a ++ b) i j = slice a i j := by
  simp only [slice, ← List.drop_take, List.take_append_of_le_length h]

theorem lengthByteDiffers_some {x : Byte} {data : Bytes} :
    lengthByteDiffers (some x) data = true ↔ data.head? ≠ some x := by simp [lengthByteDiffers]

theorem lengthByteDiffers_some_eq_false {x : Byte} {data : Bytes} :
    lengthByteDiffers (some x) data = false ↔ data.head? = some x := by simp [lengthByteDiffers]

/-- The length byte test reads byte 0 only (R154). -/
theorem lengthByteDiffers_append (xlen : Option Byte) {data : Bytes} (h : data ≠ []) (x : Bytes) :
    lengthByteDiffers xlen (data ++ x) = lengthByteDiffers xlen data := by
  cases xlen with
  | none => rfl
  | some v => rw [lengthByteDiffers, lengthByteDiffers, List.head?_append_of_ne_nil _ h]

/-- Operations that agree are offered with one outcome, at a busy block too. -/
theorem request_congr {op op' : State → State} (h : ∀ s, op s = op' s) (s : State) :
    s.request op = s.request op' := by rw [funext h]

/-- An accepted instruction that completes with a code and no output. -/
theorem exec_eq_finish {i : Instr} {s : State} (e : ErrCode) (hs : s.busy = false)
    (h : opOf i s.accept = s.accept.finish e) :
    exec i s = .next (done s (0x10#8 ||| e.code.setWidth 8) [] s.crc) :=
  exec_eq_next hs (h.trans (finish_accept_eq_done s e))

/-! ## A checked envelope -/

theorem deliver_accept (s : State) (out : Bytes) : s.accept.deliver out = done s 0x10#8 out s.crc :=
  crc_deliver_accept s s.crc out

theorem statusErr_done (s : State) (b : Byte) (out : Bytes) (c : U16) :
    statusErr (done s b out c).status = b.extractLsb' 0 4 := statusErr_masked s.status b

/-- The checksum of the envelope decides whether the operation ends OK (R158). -/
theorem checkedDeliver_accept_ok_iff {env : Bytes} (henv : 3 ≤ env.length) (payload : Bytes) (s : State) :
    statusErr (checkedDeliver env payload s.accept).status = 0#4 ↔ valid env = true := by
  cases hv : valid env with
  | false => simp [checkedDeliver_accept_of_invalid henv hv, statusErr_done]
  | true => simp [checkedDeliver_accept_of_valid hv, statusErr_done]

/-! ## Fixed mode, check by check -/

section
variable {val : Bool} {xlen : Option Byte} {data : Bytes} {n : Byte} (s : State)

theorem decFixedOp_of_short (h : data.length < 1 + n.toNat) :
    decFixedOp val xlen data n s = s.finish .transportShortRead := if_pos h

theorem decFixedOp_of_differs (hlen : 1 + n.toNat ≤ data.length) (hx : lengthByteDiffers xlen data = true) :
    decFixedOp val xlen data n s = s.finish .unexpectedResponseLength :=
  (if_neg (Nat.not_lt.mpr hlen)).trans (if_pos hx)

/-- Where the length byte test passes, the operation is the one without the test. -/
theorem decFixedOp_of_same (hx : lengthByteDiffers xlen data = false) :
    decFixedOp val xlen data n s = decFixedOp val none data n s := by
  rw [decFixedOp, hx]; rfl

theorem decFixedOp_unchecked (hlen : 1 + n.toNat ≤ data.length) :
    decFixedOp false none data n s = s.deliver (payloadOf data n.toNat) := by
  rw [← slice_payload]
  exact if_neg (Nat.not_lt.mpr hlen)

theorem decFixedOp_of_below_floor (hlen : 1 + n.toNat ≤ data.length) (h3 : data.length < 3) :
    decFixedOp true none data n s = s.finish .checksumMismatch :=
  (if_neg (Nat.not_lt.mpr hlen)).trans (if_pos h3)

/-- The whole buffer is checked, not the `1 + n` bytes that are read (R150). -/
theorem decFixedOp_checked (hlen : 1 + n.toNat ≤ data.length) (h3 : 3 ≤ data.length) :
    decFixedOp true none data n s = checkedDeliver data (payloadOf data n.toNat) s := by
  rw [← slice_payload]
  exact (if_neg (Nat.not_lt.mpr hlen)).trans (if_neg (Nat.not_lt.mpr h3))

/-- Without VAL, bytes after the first `1 + n` are not read (R154). -/
theorem decFixedOp_append (hlen : 1 + n.toNat ≤ data.length) (x : Bytes) :
    decFixedOp false xlen (data ++ x) n s = decFixedOp false xlen data n s := by
  have hlen' : 1 + n.toNat ≤ (data ++ x).length := by rw [List.length_append]; omega
  have hx := lengthByteDiffers_append xlen (List.ne_nil_of_length_pos (by omega : 0 < data.length)) x
  cases hd : lengthByteDiffers xlen data with
  | true => rw [decFixedOp_of_differs s hlen hd, decFixedOp_of_differs s hlen' (hx.trans hd)]
  | false =>
    rw [decFixedOp_of_same s hd, decFixedOp_of_same s (hx.trans hd), decFixedOp_unchecked s hlen,
      decFixedOp_unchecked s hlen', ← slice_payload, ← slice_payload, slice_append_left hlen]

end

/-! ## Full mode, check by check -/

section
variable {xlen : Option Byte} {L : Byte} {rest : Bytes} (s : State)

theorem decFullOp_of_differs (hx : lengthByteDiffers xlen (L :: rest) = true) :
    decFullOp xlen (L :: rest) s = s.finish .unexpectedResponseLength := if_pos hx

/-- Where the length byte test passes, the operation is the one without the test. -/
theorem decFullOp_of_same (hx : lengthByteDiffers xlen (L :: rest) = false) :
    decFullOp xlen (L :: rest) s = decFullOp none (L :: rest) s := by
  simp only [decFullOp, hx]; rfl

theorem decFullOp_of_below_floor (h3 : L.toNat < 3) :
    decFullOp none (L :: rest) s = s.finish .unexpectedResponseLength := if_pos h3

theorem decFullOp_of_short (h3 : 3 ≤ L.toNat) (hlen : (L :: rest).length < L.toNat) :
    decFullOp none (L :: rest) s = s.finish .transportShortRead :=
  (if_neg (Nat.not_lt.mpr h3)).trans (if_pos hlen)

/-- The first `L` bytes are checked, and those between byte 0 and the checksum are the payload (R152). -/
theorem decFullOp_checked (h3 : 3 ≤ L.toNat) (hlen : L.toNat ≤ (L :: rest).length) :
    decFullOp none (L :: rest) s =
      checkedDeliver ((L :: rest).take L.toNat) (payloadOf (L :: rest) (L.toNat - 3)) s := by
  rw [← slice_zero, ← slice_payload, show 1 + (L.toNat - 3) = L.toNat - 2 by omega]
  exact (if_neg (Nat.not_lt.mpr h3)).trans (if_neg (Nat.not_lt.mpr hlen))

/-- Bytes after the first `L` are not read (R154). -/
theorem decFullOp_append (hlen : L.toNat ≤ (L :: rest).length) (x : Bytes) :
    decFullOp xlen (L :: rest ++ x) s = decFullOp xlen (L :: rest) s := by
  have hx : lengthByteDiffers xlen (L :: (rest ++ x)) = lengthByteDiffers xlen (L :: rest) :=
    lengthByteDiffers_append xlen (List.cons_ne_nil L rest) x
  have hlen' : L.toNat ≤ (L :: rest ++ x).length := by rw [List.length_append]; omega
  rw [List.cons_append] at hlen' ⊢
  cases hd : lengthByteDiffers xlen (L :: rest) with
  | true => rw [decFullOp_of_differs s hd, decFullOp_of_differs s (hx.trans hd)]
  | false =>
    rw [decFullOp_of_same s hd, decFullOp_of_same s (hx.trans hd)]
    obtain h3 | h3 := Nat.lt_or_ge L.toNat 3
    · rw [decFullOp_of_below_floor s h3, decFullOp_of_below_floor s h3]
    · rw [decFullOp_checked s h3 hlen, decFullOp_checked s h3 hlen', ← slice_payload, ← slice_payload,
        ← List.cons_append, List.take_append_of_le_length hlen, slice_append_left (by omega)]

end

/-! ## Which DEC ends OK -/

section
variable {s t : State} {data : Bytes} {n L x : Byte}

theorem not_ok_of_finish_length (s : State) :
    statusErr (s.finish .unexpectedResponseLength).status ≠ 0#4 := by
  rw [State.finish_status, statusErr_finish]; decide

theorem decFixedVal_ok_iff (hs : s.busy = false) (hlen : 1 + n.toNat ≤ data.length) (h3 : 3 ≤ data.length)
    (h : exec (.decFixedVal data n) s = .next t) : statusErr t.status = 0#4 ↔ valid data = true := by
  obtain rfl : t = checkedDeliver data (payloadOf data n.toNat) s.accept :=
    (next_of_exec_open hs h).trans (decFixedOp_checked s.accept hlen h3)
  exact checkedDeliver_accept_ok_iff h3 _ s

theorem decFull_ok_iff (hs : s.busy = false) (hL : data.head? = some L) (h3 : 3 ≤ L.toNat)
    (hlen : L.toNat ≤ data.length) (h : exec (.decFull data) s = .next t) :
    statusErr t.status = 0#4 ↔ valid (data.take L.toNat) = true := by
  obtain ⟨rest, rfl⟩ := List.head?_eq_some_iff.mp hL
  obtain rfl := (next_of_exec_open hs h).trans (decFullOp_checked s.accept h3 hlen)
  exact checkedDeliver_accept_ok_iff (by rwa [List.length_take_of_le hlen]) _ s

theorem exec_decFixedValXlen_of_same (hx : data.head? = some x) (s : State) :
    exec (.decFixedValXlen data n x) s = exec (.decFixedVal data n) s :=
  request_congr (fun s => decFixedOp_of_same s (lengthByteDiffers_some_eq_false.mpr hx)) s

theorem exec_decFullXlen_of_same (hx : data.head? = some x) (s : State) :
    exec (.decFullXlen data x) s = exec (.decFull data) s := by
  obtain ⟨rest, rfl⟩ := List.head?_eq_some_iff.mp hx
  exact request_congr (fun s => decFullOp_of_same s (lengthByteDiffers_some_eq_false.mpr hx)) s

theorem decFixedValXlen_ok_iff (hs : s.busy = false) (hlen : 1 + n.toNat ≤ data.length) (h3 : 3 ≤ data.length)
    (h : exec (.decFixedValXlen data n x) s = .next t) :
    statusErr t.status = 0#4 ↔ valid data = true ∧ data.head? = some x := by
  by_cases hx : data.head? = some x
  · rw [exec_decFixedValXlen_of_same hx] at h
    rw [decFixedVal_ok_iff hs hlen h3 h, and_iff_left hx]
  · obtain rfl : t = s.accept.finish .unexpectedResponseLength :=
      (next_of_exec_open hs h).trans (decFixedOp_of_differs s.accept hlen (lengthByteDiffers_some.mpr hx))
    exact iff_of_false (not_ok_of_finish_length _) fun ⟨_, hx'⟩ => hx hx'

theorem decFullXlen_ok_iff (hs : s.busy = false) (hL : data.head? = some L) (h3 : 3 ≤ L.toNat)
    (hlen : L.toNat ≤ data.length) (h : exec (.decFullXlen data x) s = .next t) :
    statusErr t.status = 0#4 ↔ valid (data.take L.toNat) = true ∧ L = x := by
  by_cases hx : L = x
  · rw [exec_decFullXlen_of_same (hx ▸ hL)] at h
    rw [decFull_ok_iff hs hL h3 hlen h, and_iff_left hx]
  · obtain ⟨rest, rfl⟩ := List.head?_eq_some_iff.mp hL
    have hd : lengthByteDiffers (some x) (L :: rest) = true := lengthByteDiffers_some.mpr (by simpa using hx)
    obtain rfl : t = s.accept.finish .unexpectedResponseLength :=
      (next_of_exec_open hs h).trans (decFullOp_of_differs s.accept hd)
    exact iff_of_false (not_ok_of_finish_length _) fun ⟨_, hx'⟩ => hx hx'

end

/-! ## The statements -/

/-- Settles O12: the equations of fixed mode, one for each case. -/
theorem decFixedOperation : Obligations.DecFixedOperation := by
  refine ⟨fun _ => ⟨decode_decFixed, decode_decFixedVal, decode_decFixedXlen, decode_decFixedValXlen⟩,
    fun s data n x hs => ⟨fun h => ?short, fun h => ?plain, fun h h3 => ?floor, fun h h3 hv => ?invalid,
      fun h hv => ?valid, fun h hx => ?differs, fun h hx => ?same⟩⟩
  case short =>
    refine ⟨?_, ?_, ?_, ?_⟩ <;>
      exact exec_eq_finish .transportShortRead hs (decFixedOp_of_short s.accept h)
  case plain => exact exec_eq_next hs ((decFixedOp_unchecked s.accept h).trans (deliver_accept s _))
  case floor => exact exec_eq_finish .checksumMismatch hs (decFixedOp_of_below_floor s.accept h h3)
  case invalid =>
    exact exec_eq_next hs
      ((decFixedOp_checked s.accept h h3).trans (checkedDeliver_accept_of_invalid h3 hv _ s))
  case valid =>
    exact exec_eq_next hs
      ((decFixedOp_checked s.accept h (length_of_valid hv)).trans (checkedDeliver_accept_of_valid hv _ s))
  case differs =>
    have hd := lengthByteDiffers_some.mpr hx
    constructor <;> exact exec_eq_finish .unexpectedResponseLength hs (decFixedOp_of_differs s.accept h hd)
  case same =>
    have hd := lengthByteDiffers_some_eq_false.mpr hx
    exact ⟨exec_eq_next hs <| (decFixedOp_of_same s.accept hd).trans <|
      (decFixedOp_unchecked s.accept h).trans (deliver_accept s _), exec_decFixedValXlen_of_same hx s⟩

/-- Settles O13: the equations of full mode, one for each case. -/
theorem decFullOperation : Obligations.DecFullOperation := by
  refine ⟨fun _ => ⟨decode_decFull, decode_decFullXlen⟩, fun s x hs => ⟨⟨?_, ?_⟩, fun L rest =>
    ⟨fun h3 => ?floor, fun h3 h => ?short, fun h3 h hv => ?invalid, fun h3 h hv => ?valid,
      fun hne => ?differs, fun heq => ?same⟩⟩⟩
  · exact exec_eq_finish .transportShortRead hs rfl
  · exact exec_eq_finish .transportShortRead hs rfl
  case floor => exact exec_eq_finish .unexpectedResponseLength hs (decFullOp_of_below_floor s.accept h3)
  case short => exact exec_eq_finish .transportShortRead hs (decFullOp_of_short s.accept h3 h)
  case invalid =>
    have henv : 3 ≤ ((L :: rest).take L.toNat).length := by rwa [List.length_take_of_le h]
    exact exec_eq_next hs
      ((decFullOp_checked s.accept h3 h).trans (checkedDeliver_accept_of_invalid henv hv _ s))
  case valid =>
    exact exec_eq_next hs ((decFullOp_checked s.accept h3 h).trans (checkedDeliver_accept_of_valid hv _ s))
  case differs =>
    have hd : lengthByteDiffers (some x) (L :: rest) = true := lengthByteDiffers_some.mpr (by simpa using hne)
    exact exec_eq_finish .unexpectedResponseLength hs (decFullOp_of_differs s.accept hd)
  case same => exact exec_decFullXlen_of_same (data := L :: rest) (congrArg some heq) s

/-- Settles O14: the checked envelope decides, and an XLEN form whose test passes is the form without the test. -/
theorem decChecksTheWholeEnvelope : Obligations.DecChecksTheWholeEnvelope := by
  intro s data hs hdata
  refine ⟨fun n hn => ?_, fun L hL h3 hlen t h => decFull_ok_iff hs hL h3 hlen h,
    fun L x hL h3 hlen t h => decFullXlen_ok_iff hs hL h3 hlen h⟩
  have hlen : 1 + n.toNat ≤ data.length := by omega
  exact ⟨fun t h => decFixedVal_ok_iff hs hlen hdata h, fun x t h => decFixedValXlen_ok_iff hs hlen hdata h⟩

/-- Settles O15: whatever follows, the operation is that of `data` alone. -/
theorem decIgnoresUnreadBytes : Obligations.DecIgnoresUnreadBytes := by
  refine fun s data x y => ⟨fun n hlen => ?fixed, fun L hL hlen => ?full⟩
  case fixed =>
    refine ⟨?_, fun v => ?_⟩ <;>
      exact request_congr (fun s => (decFixedOp_append s hlen x).trans (decFixedOp_append s hlen y).symm) s
  case full =>
    obtain ⟨rest, rfl⟩ := List.head?_eq_some_iff.mp hL
    refine ⟨?_, fun v => ?_⟩ <;>
      exact request_congr (fun s => (decFullOp_append s hlen x).trans (decFullOp_append s hlen y).symm) s

/-- Settles O16: both check the whole buffer and deliver the same bytes of it. -/
theorem fullAndFixedModesAgree : Obligations.FullAndFixedModesAgree := by
  intro s data L n hL hlen h3 hn
  obtain ⟨rest, rfl⟩ := List.head?_eq_some_iff.mp hL
  refine request_congr (fun s => ?_) s
  calc decFullOp none (L :: rest) s
      = checkedDeliver ((L :: rest).take L.toNat) (payloadOf (L :: rest) (L.toNat - 3)) s :=
        decFullOp_checked s h3 hlen.ge
    _ = checkedDeliver (L :: rest) (payloadOf (L :: rest) n.toNat) s := by
        rw [List.take_of_length_le hlen.le, hn]
    _ = decFixedOp true none (L :: rest) n s := (decFixedOp_checked s (by omega) (by omega)).symm

end Sys2Proof.Machine
end

section
/-! PROOFS of the statements of 43_wake.md. In each waiting position the sequencer has one bus request on the bus, or
none in `W_SETTLE`; a quiet step puts it there and changes nothing else, so a wait of any length ends as a wait of
no steps does. -/

namespace Sys2Proof.Machine
open Claims

/-! ## What an input brings -/

/-- An answer is taken exactly where it carries the number of the outstanding request (R241). -/
theorem answered_eq_some {s : State} {α : Type} {a : Option (Nat × α)} {x : α} :
    s.answered a = some x ↔ ∃ n, a = some (n, x) ∧ s.busOpen = true ∧ n + 1 = s.busLog.length := by
  cases a with
  | none => simp [State.answered]
  | some p => obtain ⟨n, y⟩ := p; simp [State.answered]; tauto

theorem exists_of_answered {s : State} {α : Type} {a : Option (Nat × α)} {x : α} (h : s.answered a = some x) :
    ∃ n, a = some (n, x) := by
  obtain ⟨n, hn, -, -⟩ := answered_eq_some.mp h
  exact ⟨n, hn⟩

@[simp] theorem answered_none (s : State) {α : Type} : s.answered (none : Option (Nat × α)) = none := rfl

theorem input_of_cons {s : State} {i : Input} {rest : List Input} (h : s.inputs = i :: rest) : s.input = i := by
  simp [State.input, h]

/-- Where the host leaves its offer, a step takes the input and nothing else. -/
theorem takeInput_of_keep {s : State} (h : s.input.offer = .keep) :
    s.takeInput = { s with inputs := s.inputs.tail } := by
  rw [State.takeInput, State.offered, h, Offer.apply_keep]

theorem takeInput_of_cons {s : State} {i : Input} {rest : List Input} (h : s.inputs = i :: rest)
    (hi : i.offer = .keep) : s.takeInput = { s with inputs := rest } := by
  rw [takeInput_of_keep (by rw [input_of_cons h, hi]), h, List.tail_cons]

/-! ## One equation per transition -/

section
variable {i : Input} {s : State}

theorem wakeStep_pulse (hw : s.wstate = .pulse) : wakeStep i s = wakePulseStep i s := by rw [wakeStep, hw]
theorem wakeStep_settle (hw : s.wstate = .settle) : wakeStep i s = wakeSettleStep i s := by rw [wakeStep, hw]
theorem wakeStep_recv (hw : s.wstate = .recv) : wakeStep i s = wakeRecvStep i s := by rw [wakeStep, hw]
theorem wakeStep_cmp (hw : s.wstate = .cmp) : wakeStep i s = wakeCmpStep s := by rw [wakeStep, hw]

theorem wakePulseStep_ok (h : (s.issue (.transmit Config.wakePulse)).answered i.tx = some .ok) :
    wakePulseStep i s =
      .next { (s.issue (.transmit Config.wakePulse)).closeBus with wstate := .settle } := by
  simp only [wakePulseStep, h]

theorem wakePulseStep_err (h : (s.issue (.transmit Config.wakePulse)).answered i.tx = some .err) :
    wakePulseStep i s =
      .next ((s.issue (.transmit Config.wakePulse)).closeBus.endWake .busTransportError) := by
  simp only [wakePulseStep, h]

theorem wakePulseStep_none (h : i.tx = none) :
    wakePulseStep i s = .next (s.issue (.transmit Config.wakePulse)) := by
  simp only [wakePulseStep, h, answered_none]

theorem wakeRecvStep_err (h : (s.issue (.receive Config.wakeAckLen)).answered i.rx = some .err) :
    wakeRecvStep i s =
      .next ((s.issue (.receive Config.wakeAckLen)).closeBus.endWake .busTransportError) := by
  simp only [wakeRecvStep, h]

theorem wakeRecvStep_short {b : Bytes} (hb : b.length < Config.wakeAckLen)
    (h : (s.issue (.receive Config.wakeAckLen)).answered i.rx = some (.ok b)) :
    wakeRecvStep i s =
      .next (State.endWake .wakeFailed { (s.issue (.receive Config.wakeAckLen)).closeBus with wbuf := b }) := by
  simp only [wakeRecvStep, h, if_neg hb.le.not_gt, if_pos hb]

theorem wakeRecvStep_full {b : Bytes} (hb : b.length = Config.wakeAckLen)
    (h : (s.issue (.receive Config.wakeAckLen)).answered i.rx = some (.ok b)) :
    wakeRecvStep i s =
      .next { (s.issue (.receive Config.wakeAckLen)).closeBus with wbuf := b, wstate := .cmp } := by
  simp only [wakeRecvStep, h, if_neg hb.le.not_gt, if_neg hb.ge.not_gt]

theorem wakeRecvStep_overrun {b : Bytes} (hb : Config.wakeAckLen < b.length)
    (h : (s.issue (.receive Config.wakeAckLen)).answered i.rx = some (.ok b)) :
    wakeRecvStep i s = .fault .receiveOverrun := by
  simp only [wakeRecvStep, h, if_pos hb]

theorem wakeRecvStep_none (h : i.rx = none) :
    wakeRecvStep i s = .next (s.issue (.receive Config.wakeAckLen)) := by
  simp only [wakeRecvStep, h, answered_none]

end

/-! ## The statements about one transition -/

theorem issue_pulse_takeInput (s : State) :
    s.takeInput.issue (.transmit Config.wakePulse) = pulseIssued s := by
  rcases s with ⟨c, st, o, w, wb, q, bl, bo, ins⟩; cases bo <;> rfl

theorem issue_receive_takeInput (s : State) :
    s.takeInput.issue (.receive Config.wakeAckLen) = receiveIssued s := by
  rcases s with ⟨c, st, o, w, wb, q, bl, bo, ins⟩; cases bo <;> rfl

/-- Settles O38: the descriptor of WAKE's row, what `accept` writes with the start of the sequencer, and R29. -/
theorem wakeStartsSequencer : Obligations.WakeStartsSequencer := by
  refine ⟨fun _ => decode_wake, fun s hb => ?_, fun _ hs => hs.idle_of_not_busy⟩
  rw [exec_eq_request, request_open _ hb, opOf, wakeOp, State.accept, acceptStatus_value]; rfl

/-- Settles O39: an answer with the number of the pulse is taken, and with none the pulse stays on the bus. -/
theorem pulseTransitions : Obligations.PulseTransitions := by
  intro s hrst hb hw
  have taken {k : Nat} {a : TxResult} (hk : k + 1 = (pulseIssued s).busLog.length)
      (htx : s.input.tx = some (k, a)) :
      (s.takeInput.issue (.transmit Config.wakePulse)).answered s.input.tx = some a := by
    rw [issue_pulse_takeInput]; exact answered_eq_some.mpr ⟨k, htx, rfl, hk⟩
  rw [step_wake hrst hb, wakeStep_pulse (by exact hw)]
  refine ⟨fun k hk htx => ?_, fun k hk htx => ?_, fun htx => ?_⟩
  · rw [wakePulseStep_ok (taken hk htx), issue_pulse_takeInput]; rfl
  · rw [wakePulseStep_err (taken hk htx), issue_pulse_takeInput]; rfl
  · rw [wakePulseStep_none htx, issue_pulse_takeInput]

/-- Settles O40: the transition reads `settle_elapsed` alone. -/
theorem settleTransition : Obligations.SettleTransition := by
  intro s hrst hb hw
  rw [step_wake hrst hb, wakeStep_settle (by exact hw), wakeSettleStep]
  exact ⟨fun h => by rw [if_pos h], fun h => by rw [h]; rfl⟩

/-- Settles O41: an answer with the number of the receive is taken, and the bytes it brings are counted. -/
theorem receiveTransitions : Obligations.ReceiveTransitions := by
  intro s hrst hb hw
  have taken {k : Nat} {a : RxResult} (hk : k + 1 = (receiveIssued s).busLog.length)
      (hrx : s.input.rx = some (k, a)) :
      (s.takeInput.issue (.receive Config.wakeAckLen)).answered s.input.rx = some a := by
    rw [issue_receive_takeInput]; exact answered_eq_some.mpr ⟨k, hrx, rfl, hk⟩
  rw [step_wake hrst hb, wakeStep_recv (by exact hw)]
  refine ⟨fun k hk => ⟨fun hrx => ?_, fun b hrx => ⟨fun hlen => ?_, fun hlen => ?_, fun hlen => ?_⟩⟩,
    fun hrx => ?_⟩
  · rw [wakeRecvStep_err (taken hk hrx), issue_receive_takeInput]; rfl
  · rw [wakeRecvStep_short hlen (taken hk hrx), issue_receive_takeInput]; rfl
  · rw [wakeRecvStep_full hlen (taken hk hrx), issue_receive_takeInput]; rfl
  · exact wakeRecvStep_overrun hlen (taken hk hrx)
  · rw [wakeRecvStep_none hrx, issue_receive_takeInput]

theorem wakeVerdict_eq (ack received : Bytes) :
    wakeVerdict ack received = if received = ack then .ok else .wakeFailed := by
  simp [wakeVerdict]

theorem wakeVerdict_code (ack received : Bytes) :
    (wakeVerdict ack received).code = if received = ack then 0#4 else 2#4 := by
  rw [wakeVerdict_eq, apply_ite ErrCode.code]; rfl

/-- Settles O42: the verdict is the comparison, and the bus is left alone. -/
theorem compareTransition : Obligations.CompareTransition := by
  intro s hrst hb hw
  rw [step_wake hrst hb, wakeStep_cmp (by exact hw), wakeCmpStep, wakeVerdict_eq, State.takeInput_wbuf]
  exact ⟨fun h => by rw [if_pos h]; rfl, fun h => by rw [if_neg h]; rfl⟩

/-! ## The statements about every transition -/

theorem requestOp_wake {r : Request} (h : r.req = 0x04#8) : requestOp r = wakeOp := by
  rw [requestOp, decode_wake h]; rfl

/-- Only a request with WAKE's descriptor leaves `W_IDLE`. -/
theorem req_of_requestOp_wstate {r : Request} {s : State} (h : (requestOp r s.accept).wstate ≠ .idle) :
    r.req = 0x04#8 := by
  cases hd : decode r with
  | error e => rw [requestOp, hd] at h; exact absurd rfl h
  | ok i =>
    by_cases hi : i = .wake
    · obtain ⟨j, hj, hreq, -⟩ := exists_decode_of_legal (legal_of_decode hd)
      obtain rfl : i = j := Except.ok.inj (hd.symm.trans hj)
      rw [← hreq, hi]; rfl
    · obtain ⟨b, out, -, -, -, hdone⟩ := completes_opOf hi
      rw [requestOp, hd] at h
      exact absurd (congrArg State.wstate (hdone s)) h

/-- Settles O43: the only transitions that change `WSTATE` are those of R190, and a request other than WAKE
completes in `W_IDLE`. -/
theorem noOtherWakeTransition : Obligations.NoOtherWakeTransition := by
  intro s t hs h hne
  obtain ⟨hrst, rfl⟩ | ⟨hrst, -, h⟩ | ⟨-, -, -, rfl⟩ | ⟨hrst, hb, r, ho, -, rfl⟩ := step_cases h
  · exact .inl ⟨hrst, rfl⟩
  · refine .inr ⟨hrst, .inr ?_⟩
    obtain ⟨-, rfl⟩ | ⟨hw, u, rfl, h⟩ | ⟨hw, h⟩ | ⟨hw, u, rfl, h⟩ | ⟨hw, rfl⟩ := wakeStep_cases h
    · exact absurd rfl hne
    · obtain ⟨-, rfl⟩ | ⟨ha, rfl⟩ | ⟨ha, rfl⟩ := h
      · exact absurd (State.issue_wstate s.takeInput _).symm hne
      · exact .inl ⟨hw, rfl, exists_of_answered ha⟩
      · exact .inr (.inl ⟨hw, rfl, statusErr_finish _ _, exists_of_answered ha⟩)
    · obtain ⟨hset, rfl⟩ | ⟨-, rfl⟩ := h
      · exact .inr (.inr (.inl ⟨hw, rfl, hset⟩))
      · exact absurd rfl hne
    · refine .inr (.inr (.inr ?_))
      obtain ⟨-, rfl⟩ | ⟨ha, rfl⟩ | ⟨b, ha, hlen, rfl⟩ | ⟨b, ha, hlen, rfl⟩ := h
      · exact absurd (State.issue_wstate s.takeInput _).symm hne
      · exact .inl ⟨hw, rfl, statusErr_finish _ _, exists_of_answered ha⟩
      · obtain ⟨k, hrx⟩ := exists_of_answered ha
        exact .inr (.inl ⟨hw, rfl, statusErr_finish _ _, k, b, hrx, hlen, rfl⟩)
      · obtain ⟨k, hrx⟩ := exists_of_answered ha
        exact .inr (.inr (.inl ⟨hw, rfl, k, b, hrx, hlen, rfl⟩))
    · have herr := (statusErr_finish (wakeVerdict Config.wakeAck.toList s.wbuf) s.status).trans (wakeVerdict_code _ _)
      exact .inr (.inr (.inr (.inr (.inr (.inr ⟨hw, rfl, herr⟩)))))
  · exact absurd rfl hne
  · have hidle := hs.idle_of_not_busy hb
    have hreq := req_of_requestOp_wstate (hidle ▸ hne).symm
    rw [requestOp_wake hreq]
    exact .inr ⟨hrst, .inl ⟨hidle, rfl, statusBusy_accept s.status, r, ho, hreq⟩⟩

/-- What the end of a wake in progress reports: the code, `DONE`, and no checksum match (R189, R26). -/
theorem Inv.endWake_report {s u : State} (hs : Inv s) (hb : s.busy = true) (hu : u.status = s.status) (e : ErrCode) :
    statusErr (u.endWake e).status = e.code ∧ statusDone (u.endWake e).status = true ∧
      statusCrcok (u.endWake e).status = false := by
  obtain ⟨-, -, hcrcok⟩ := hs.wake_report hb
  exact ⟨statusErr_finish e _, statusDone_finish e _, by rw [State.endWake_status, statusCrcok_finish, hu, hcrcok]⟩

/-- Settles O44: the wake ends in `endWake` only, with `WBUF` empty, with the bytes of this step's answer, or with
the four bytes that `W_CMP` holds. -/
theorem wakeEndsWithReceivedBytes : Obligations.WakeEndsWithReceivedBytes := by
  intro s t hs hb hrst h hend
  rw [step_wake hrst hb] at h
  have goesOn {u : State} (hu : u.status = s.status) : u.busy ≠ false := by
    rw [State.busy, hu]; exact ne_false_of_eq_true hb
  obtain ⟨-, rfl⟩ | ⟨hw, u, hu, h⟩ | ⟨-, h⟩ | ⟨hw, u, hu, h⟩ | ⟨hw, rfl⟩ := wakeStep_cases h
  · exact absurd hend (goesOn rfl)
  · have hst : u.status = s.status := by rw [hu]; exact State.issue_status _ _
    have hbuf : u.wbuf = [] := by rw [hu, State.issue_wbuf]; exact hs.wbuf_empty (.inl hw)
    obtain ⟨-, rfl⟩ | ⟨-, rfl⟩ | ⟨-, rfl⟩ := h
    · exact absurd hend (goesOn hst)
    · exact absurd hend (goesOn hst)
    · obtain ⟨herr, hdone, hcrc⟩ := hs.endWake_report hb (u := u.closeBus) hst .busTransportError
      exact ⟨rfl, hdone, hcrc, .inl ⟨herr, hbuf⟩⟩
  · obtain ⟨-, rfl⟩ | ⟨-, rfl⟩ := h <;> exact absurd hend (goesOn rfl)
  · have hst : u.status = s.status := by rw [hu]; exact State.issue_status _ _
    have hbuf : u.wbuf = [] := by rw [hu, State.issue_wbuf]; exact hs.wbuf_empty (.inr (.inr hw))
    obtain ⟨-, rfl⟩ | ⟨-, rfl⟩ | ⟨b, ha, hlen, rfl⟩ | ⟨b, -, -, rfl⟩ := h
    · exact absurd hend (goesOn hst)
    · obtain ⟨herr, hdone, hcrc⟩ := hs.endWake_report hb (u := u.closeBus) hst .busTransportError
      exact ⟨rfl, hdone, hcrc, .inl ⟨herr, hbuf⟩⟩
    · obtain ⟨herr, hdone, hcrc⟩ := hs.endWake_report hb (u := { u.closeBus with wbuf := b }) hst .wakeFailed
      obtain ⟨k, hrx⟩ := exists_of_answered ha
      exact ⟨rfl, hdone, hcrc, .inr (.inl ⟨herr, k, hrx, hlen⟩)⟩
    · exact absurd hend (goesOn hst)
  · obtain ⟨herr, hdone, hcrc⟩ := hs.endWake_report hb (u := s.takeInput) rfl (wakeVerdict _ s.wbuf)
    exact ⟨rfl, hdone, hcrc, .inr (.inr ⟨hw, rfl, hs.cmp_full hw, herr.trans (wakeVerdict_code _ _)⟩)⟩

/-! ## Waits -/

/-- The bus request of the sequencer's position is on the bus: issued unless it is outstanding already. -/
def State.onBus (s : State) : State :=
  match s.wstate with
  | .pulse => s.issue (.transmit Config.wakePulse)
  | .recv  => s.issue (.receive Config.wakeAckLen)
  | _      => s

theorem onBus_pulse {s : State} (hw : s.wstate = .pulse) : s.onBus = s.issue (.transmit Config.wakePulse) := by
  rw [State.onBus, hw]
theorem onBus_settle {s : State} (hw : s.wstate = .settle) : s.onBus = s := by rw [State.onBus, hw]
theorem onBus_recv {s : State} (hw : s.wstate = .recv) : s.onBus = s.issue (.receive Config.wakeAckLen) := by
  rw [State.onBus, hw]

theorem issue_issue (s : State) (c : BusCall) : (s.issue c).issue c = s.issue c := by
  rw [State.issue, if_pos (State.issue_busOpen s c)]

/-- Issuing a request writes the bus elements only, and reads no other port. -/
theorem issue_frame (s : State) (c : BusCall) : ∃ log o, ∀ p ins,
    State.issue c { s with port := p, inputs := ins } =
      { s with port := p, inputs := ins, busLog := log, busOpen := o } := by
  cases s.busOpen
  · exact ⟨s.busLog ++ [c], true, fun _ _ => rfl⟩
  · exact ⟨s.busLog, true, fun _ _ => rfl⟩

theorem onBus_frame (s : State) : ∃ log o, ∀ p ins,
    State.onBus { s with port := p, inputs := ins } =
      { s with port := p, inputs := ins, busLog := log, busOpen := o } := by
  rcases s with ⟨c, st, o, w, wb, q, log, bo, ins⟩
  cases w with
  | pulse => exact issue_frame _ _
  | recv => exact issue_frame _ _
  | _ => exact ⟨_, _, fun _ _ => rfl⟩

theorem onBus_takeInput (s : State) : s.onBus.takeInput = s.takeInput.onBus := by
  obtain ⟨log, o, h⟩ := onBus_frame s
  calc s.onBus.takeInput = State.takeInput { s with busLog := log, busOpen := o } :=
        congrArg State.takeInput (h s.port s.inputs)
    _ = s.takeInput.onBus := (h s.offered s.inputs.tail).symm

/-- A transition is the same whether its bus request is outstanding already or issued in it. -/
theorem wakeStep_onBus (i : Input) (s : State) : wakeStep i s.onBus = wakeStep i s := by
  cases hw : s.wstate with
  | pulse =>
    rw [onBus_pulse hw, wakeStep_pulse (by simp [hw]), wakeStep_pulse hw, wakePulseStep, issue_issue]; rfl
  | recv =>
    rw [onBus_recv hw, wakeStep_recv (by simp [hw]), wakeStep_recv hw, wakeRecvStep, issue_issue]; rfl
  | _ => rw [State.onBus, hw]

theorem step_onBus {s : State} (hrst : s.input.rst = false) (hb : s.busy = true) : step s.onBus = step s := by
  obtain ⟨log, o, h⟩ := onBus_frame s
  have hbus : s.onBus = { s with busLog := log, busOpen := o } := h s.port s.inputs
  have hinput : s.onBus.input = s.input := by rw [hbus]; rfl
  have hbusy : s.onBus.busy = true := by rw [hbus]; exact hb
  rw [step_wake (hinput ▸ hrst) hbusy, step_wake hrst hb, hinput, onBus_takeInput, wakeStep_onBus]

/-- A waiting position, with no answer and no event: the sequencer waits (R191). -/
theorem step_wait {s : State} (hb : s.busy = true) (hw : s.wstate = .pulse ∨ s.wstate = .settle ∨ s.wstate = .recv)
    (hq : s.input = Input.quiet) : step s = .next (State.onBus { s with inputs := s.inputs.tail }) := by
  rw [step_wake (by rw [hq]; rfl) hb, takeInput_of_keep (by rw [hq]; rfl), hq]
  obtain hw | hw | hw := hw
  · rw [wakeStep_pulse (by exact hw), onBus_pulse (by exact hw), wakePulseStep_none rfl]
  · rw [wakeStep_settle (by exact hw), onBus_settle (by exact hw)]; rfl
  · rw [wakeStep_recv (by exact hw), onBus_recv (by exact hw), wakeRecvStep_none rfl]

/-! ## Runs -/

theorem run_succ_eq_next {M : Host.Core} {k : Nat} {s u : M.State} :
    M.run (k + 1) s = .next u ↔ ∃ t, M.step s = .next t ∧ M.run k t = .next u := by
  rw [Host.Core.run]; cases M.step s <;> simp

theorem reaches_succ_iff {k : Nat} {s u : State} :
    Reaches (k + 1) s u ↔ ∃ t, step s = .next t ∧ Reaches k t u := run_succ_eq_next

theorem reaches_succ {k : Nat} {s t u : State} (h : step s = .next t) (h' : Reaches k t u) : Reaches (k + 1) s u :=
  reaches_succ_iff.mpr ⟨t, h, h'⟩

theorem Reaches.trans {j k : Nat} {s t u : State} (h : Reaches j s t) (h' : Reaches k t u) : Reaches (j + k) s u := by
  induction j generalizing s with
  | zero => cases h; rwa [Nat.zero_add]
  | succ j ih =>
    obtain ⟨v, hv, hvt⟩ := reaches_succ_iff.mp h
    rw [Nat.add_right_comm]; exact reaches_succ hv (ih hvt)

/-- Settles O46: each step of the run waits, and at most puts the awaited request on the bus. -/
theorem unansweredWakeHangs : Obligations.UnansweredWakeHangs := by
  intro k
  induction k with
  | zero => exact fun s hb _ _ => ⟨s, rfl, hb, rfl, rfl, rfl⟩
  | succ k ih =>
    intro s hb hins hw
    have hstep := step_wait hb hw (by rw [State.input, hins]; rfl)
    obtain ⟨log, o, hbus⟩ := onBus_frame s
    rw [hbus s.port] at hstep
    obtain ⟨t, hrun, ht⟩ :=
      ih { s with inputs := s.inputs.tail, busLog := log, busOpen := o } hb (by simp [hins]) hw
    exact ⟨t, reaches_succ hstep hrun, ht⟩

/-- A wait of `n` quiet steps does not change how it ends: the input that ends it does what it does at once. -/
theorem reaches_after_waits {n : Nat} {s u : State} {i : Input} {rest : List Input} (hb : s.busy = true)
    (hw : s.wstate = .pulse ∨ s.wstate = .settle ∨ s.wstate = .recv) (hrst : i.rst = false)
    (hins : s.inputs = List.replicate n Input.quiet ++ i :: rest)
    (h : step { s with inputs := i :: rest } = .next u) : Reaches (n + 1) s u := by
  induction n generalizing s with
  | zero =>
    have hins : s.inputs = i :: rest := hins
    rw [← hins] at h
    exact reaches_succ h rfl
  | succ n ih =>
    rw [List.replicate_succ, List.cons_append] at hins
    have hstep := step_wait hb hw (input_of_cons hins)
    rw [hins, List.tail_cons] at hstep
    obtain ⟨log, o, hbus⟩ := onBus_frame s
    rw [hbus s.port] at hstep
    refine reaches_succ hstep (ih (by exact hb) (by exact hw) rfl ?_)
    calc step { s with busLog := log, busOpen := o, inputs := i :: rest }
        = step (State.onBus { s with inputs := i :: rest }) := by rw [hbus s.port]
      _ = step { s with inputs := i :: rest } := step_onBus hrst hb
      _ = .next u := h

section
variable {n : Nat} {s : State} {rest : List Input} (hb : s.busy = true)
include hb

/-- `W_PULSE`, a wait and the answer `Ok`. -/
theorem reaches_settle (hw : s.wstate = .pulse) (hopen : s.busOpen = false)
    (hins : s.inputs = List.replicate n Input.quiet ++
      { Input.quiet with tx := some (s.busLog.length, .ok) } :: rest) :
    Reaches (n + 1) s { s with busLog := s.busLog ++ [.transmit [0x00#8]], wstate := .settle, inputs := rest } := by
  refine reaches_after_waits hb (.inl hw) rfl hins ?_
  obtain ⟨hok, -, -⟩ := pulseTransitions
    { s with inputs := { Input.quiet with tx := some (s.busLog.length, .ok) } :: rest } rfl hb hw
  rw [hok s.busLog.length (by simp [pulseIssued, hopen]) rfl]
  simp only [pulseIssued, hopen]; rfl

/-- `W_SETTLE`, a wait and `settle_elapsed`. -/
theorem reaches_recv (hw : s.wstate = .settle)
    (hins : s.inputs = List.replicate n Input.quiet ++ { Input.quiet with settle := true } :: rest) :
    Reaches (n + 1) s { s with wstate := .recv, inputs := rest } := by
  refine reaches_after_waits hb (.inr (.inl hw)) rfl hins ?_
  obtain ⟨helapsed, -⟩ := settleTransition
    { s with inputs := { Input.quiet with settle := true } :: rest } rfl hb hw
  rw [helapsed rfl]; rfl

/-- `W_RECV`, a wait and 4 bytes. -/
theorem reaches_cmp (hw : s.wstate = .recv) (hopen : s.busOpen = false) {b : Bytes} (hlen : b.length = 4)
    (hins : s.inputs = List.replicate n Input.quiet ++
      { Input.quiet with rx := some (s.busLog.length, .ok b) } :: rest) :
    Reaches (n + 1) s
      { s with busLog := s.busLog ++ [.receive 4], wbuf := b, wstate := .cmp, inputs := rest } := by
  refine reaches_after_waits hb (.inr (.inr hw)) rfl hins ?_
  obtain ⟨hanswered, -⟩ := receiveTransitions
    { s with inputs := { Input.quiet with rx := some (s.busLog.length, .ok b) } :: rest } rfl hb hw
  obtain ⟨-, hok⟩ := hanswered s.busLog.length (by simp [receiveIssued, hopen])
  obtain ⟨-, hfull, -⟩ := hok b rfl
  rw [hfull hlen]
  simp only [receiveIssued, hopen]; rfl

end

/-- `W_CMP` and the comparison. -/
theorem reaches_verdict {s : State} (hb : s.busy = true) (hw : s.wstate = .cmp) {rest : List Input}
    (hins : s.inputs = Input.quiet :: rest) :
    Reaches 1 s
      { s with
        status := finishStatus (wakeVerdict Config.wakeAck.toList s.wbuf) s.status
        out := s.wbuf, wstate := .idle, inputs := rest } := by
  refine reaches_succ ?_ rfl
  rw [step_wake (by rw [input_of_cons hins]; rfl) hb, takeInput_of_cons hins rfl, wakeStep_cmp (by exact hw)]; rfl

theorem status_of_verdict (s : State) (b : Bytes) :
    finishStatus (wakeVerdict Config.wakeAck.toList b) (acceptStatus s.status) =
      statusWith s (if b = Config.wakeAck.toList then 0x10#8 else 0x12#8) := by
  rw [status_of_finish_accept, wakeVerdict_eq]; split <;> rfl

/-- A wake in `W_PULSE` whose waits all end, from the pulse to the comparison. -/
theorem reaches_wakeEnded {s : State} {b : Bytes} {n1 n2 n3 : Nat} (hb : s.busy = true) (hw : s.wstate = .pulse)
    (hopen : s.busOpen = false) (hlen : b.length = 4)
    (hins : s.inputs =
      List.replicate n1 Input.quiet ++ { Input.quiet with tx := some (s.busLog.length, .ok) } ::
        (List.replicate n2 Input.quiet ++ { Input.quiet with settle := true } ::
          (List.replicate n3 Input.quiet ++
            { Input.quiet with rx := some (s.busLog.length + 1, .ok b) } :: [Input.quiet]))) :
    Reaches (n1 + 1 + (n2 + 1 + (n3 + 1 + 1))) s
      { s with
        status := finishStatus (wakeVerdict Config.wakeAck.toList b) s.status
        out := b, wbuf := b, wstate := .idle, inputs := []
        busLog := s.busLog ++ [.transmit [0x00#8]] ++ [.receive 4] } := by
  refine (reaches_settle hb hw hopen hins).trans ?_
  refine Reaches.trans (reaches_recv (n := n2) hb rfl rfl) ?_
  refine Reaches.trans (reaches_cmp (n := n3) (by exact hb) rfl (by exact hopen) hlen
    (by rw [List.length_append]; rfl)) ?_
  exact reaches_verdict (by exact hb) rfl rfl

/-- Settles O45: the acceptance, and then the wake whose waits all end. -/
theorem answeredWakeEnds : Obligations.AnsweredWakeEnds := by
  intro s r b n1 n2 n3 hb hw hopen hport hreq hr hlen hins
  simp only [List.append_assoc, List.cons_append, List.nil_append] at hins
  have haccept : step s = .next (wakeOp s.takeInput.takeOffer.accept) := by
    rw [← requestOp_wake hreq]
    exact step_accepts (by rw [input_of_cons hins]; rfl) hb (by rw [State.offered, input_of_cons hins]; exact hport) hr
  rw [takeInput_of_cons hins rfl] at haccept
  have hrun := reaches_succ haccept (reaches_wakeEnded (statusBusy_accept s.status) rfl hopen hlen rfl)
  have hk : n1 + 1 + (n2 + 1 + (n3 + 1 + 1)) + 1 = n1 + n2 + n3 + 5 := by omega
  rw [hk] at hrun
  simpa [status_of_verdict] using hrun

end Sys2Proof.Machine
end

section
/-! PROOFS of the statements of 60_exceptions.md. The tests of an operation choose between completions that report a
code and leave `OUT` as acceptance cleared it, and completions with `OK`; a wake reports where it ends. -/

namespace Sys2Proof.Machine
open Claims

/-! ## The codes of the operations of one step -/

/-- Run from an accepted state `op` reports one of `codes`, and where that is an error `OUT` stays empty (R211). -/
def ReportsOneOf (op : State → State) (codes : List (BitVec 4)) : Prop :=
  ∀ s : State, statusErr (op s.accept).status ∈ codes ∧
    (statusErr (op s.accept).status ≠ 0#4 → (op s.accept).out = [])

section
variable {codes : List (BitVec 4)} {op op' : State → State}

theorem reportsOneOf_finish {e : ErrCode} (he : e.code ∈ codes) : ReportsOneOf (State.finish e) codes := fun s =>
  ⟨by rwa [State.finish_status, statusErr_finish], fun _ => rfl⟩

/-- An operation that ends `OK` may leave any `OUT`. -/
theorem reportsOneOf_of_ok (h0 : 0#4 ∈ codes) (hok : ∀ s : State, statusErr (op s.accept).status = 0#4) :
    ReportsOneOf op codes := fun s =>
  ⟨by rwa [hok s], fun herr => absurd (hok s) herr⟩

/-- A test of the request alone chooses between reports. -/
theorem ReportsOneOf.ite {p : Prop} [Decidable p] (h : p → ReportsOneOf op codes)
    (h' : ¬ p → ReportsOneOf op' codes) : ReportsOneOf (fun s => if p then op s else op' s) codes := by
  by_cases hp : p
  · simpa only [if_pos hp] using h hp
  · simpa only [if_neg hp] using h' hp

theorem statusErr_deliver (s : State) (out : Bytes) : statusErr (s.deliver out).status = 0#4 :=
  statusErr_finish .ok s.status

theorem reportsOneOf_chkOp (data : Bytes) : ReportsOneOf (chkOp data) [0#4] :=
  .ite (fun _ => reportsOneOf_finish (e := .ok) (by decide))
    (fun _ => reportsOneOf_of_ok (by decide) fun _ => statusErr_finish .ok _)

theorem reportsOneOf_encOp (opc p1 : Byte) (p2 : U16) (data : Bytes) :
    ReportsOneOf (encOp opc p1 p2 data) [0#4, 6#4] :=
  .ite (fun _ => reportsOneOf_finish (e := .badRequest) (by decide))
    (fun _ => reportsOneOf_of_ok (by decide) fun _ => statusErr_deliver _ _)

/-- The trailing checksum decides between the payload and a mismatch (R158). -/
theorem reportsOneOf_checkedDeliver (h0 : 0#4 ∈ codes) (h4 : 4#4 ∈ codes) (env payload : Bytes) :
    ReportsOneOf (checkedDeliver env payload) codes :=
  .ite (fun _ => reportsOneOf_of_ok h0 fun _ => statusErr_deliver _ _)
    (fun _ s => reportsOneOf_finish (e := .checksumMismatch) h4 { s with crc := crc16 (body env) })

/-- Fixed mode can report a wrong length only where `XLEN` asks for the test, and a mismatch only with `VAL` (R150). -/
theorem reportsOneOf_decFixedOp (val : Bool) (xlen : Option Byte) (data : Bytes) (n : Byte) (h0 : 0#4 ∈ codes)
    (h5 : 5#4 ∈ codes) (h3 : lengthByteDiffers xlen data = true → 3#4 ∈ codes) (h4 : val = true → 4#4 ∈ codes) :
    ReportsOneOf (decFixedOp val xlen data n) codes :=
  .ite (fun _ => reportsOneOf_finish (e := .transportShortRead) h5) fun _ =>
    .ite (fun hx => reportsOneOf_finish (e := .unexpectedResponseLength) (h3 hx)) fun _ =>
      .ite (fun hv => .ite (fun _ => reportsOneOf_finish (e := .checksumMismatch) (h4 hv))
          (fun _ => reportsOneOf_checkedDeliver h0 (h4 hv) _ _))
        (fun _ => reportsOneOf_of_ok h0 fun _ => statusErr_deliver _ _)

theorem reportsOneOf_decFullOp (xlen : Option Byte) (data : Bytes) :
    ReportsOneOf (decFullOp xlen data) [0#4, 3#4, 4#4, 5#4] := by
  cases data with
  | nil => exact reportsOneOf_finish (e := .transportShortRead) (by decide)
  | cons b rest =>
    exact .ite (fun _ => reportsOneOf_finish (e := .unexpectedResponseLength) (by decide)) fun _ =>
      .ite (fun _ => reportsOneOf_finish (e := .unexpectedResponseLength) (by decide)) fun _ =>
        .ite (fun _ => reportsOneOf_finish (e := .transportShortRead) (by decide)) fun _ =>
          reportsOneOf_checkedDeliver (by decide) (by decide) _ _

end

/-- Every instruction reports one of the codes R210 gives it. -/
theorem reportsOneOf_opOf (i : Instr) : ReportsOneOf (opOf i) (codesOf i) := by
  cases i with
  | crc data => exact reportsOneOf_of_ok (codes := [0#4]) (by decide) fun _ => statusErr_deliver _ _
  | chk data => exact reportsOneOf_chkOp data
  | enc opc p1 p2 data => exact reportsOneOf_encOp opc p1 p2 data
  | decFixed data n =>
    exact reportsOneOf_decFixedOp (codes := [0#4, 5#4]) false none data n (by decide) (by decide) nofun nofun
  | decFixedVal data n =>
    exact reportsOneOf_decFixedOp (codes := [0#4, 4#4, 5#4]) true none data n (by decide) (by decide) nofun
      (fun _ => by decide)
  | decFixedXlen data n x =>
    exact reportsOneOf_decFixedOp (codes := [0#4, 3#4, 5#4]) false (some x) data n (by decide) (by decide)
      (fun _ => by decide) nofun
  | decFixedValXlen data n x =>
    exact reportsOneOf_decFixedOp (codes := [0#4, 3#4, 4#4, 5#4]) true (some x) data n (by decide) (by decide)
      (fun _ => by decide) (fun _ => by decide)
  | decFull data => exact reportsOneOf_decFullOp none data
  | decFullXlen data x => exact reportsOneOf_decFullOp (some x) data
  | wake => exact reportsOneOf_of_ok (codes := [0#4]) (by decide) fun s => statusErr_accept s.status

/-! ## The codes of a wake -/

theorem statusErr_endWake (s : State) (e : ErrCode) : statusErr (s.endWake e).status = e.code :=
  statusErr_finish e s.status

theorem wakeVerdict_code_mem (ack received : Bytes) : (wakeVerdict ack received).code ∈ [0#4, 1#4, 2#4] := by
  rw [wakeVerdict_code]; split <;> decide

/-- A wake transition leaves `STATUS` alone or completes, with `OK`, a bus error or a failed wake (R189). -/
theorem wakeStep_status_code {i : Input} {s t : State} (h : wakeStep i s = .next t) :
    t.status = s.status ∨ statusErr t.status ∈ [0#4, 1#4, 2#4] := by
  obtain ⟨-, rfl⟩ | ⟨-, u, rfl, h⟩ | ⟨-, h⟩ | ⟨-, u, rfl, h⟩ | ⟨-, rfl⟩ := wakeStep_cases h
  · exact .inl rfl
  · obtain ⟨-, rfl⟩ | ⟨-, rfl⟩ | ⟨-, rfl⟩ := h
    · exact .inl (State.issue_status s _)
    · exact .inl (State.issue_status s _)
    · exact .inr (by rw [statusErr_endWake]; decide)
  · obtain ⟨-, rfl⟩ | ⟨-, rfl⟩ := h <;> exact .inl rfl
  · obtain ⟨-, rfl⟩ | ⟨-, rfl⟩ | ⟨b, -, -, rfl⟩ | ⟨b, -, -, rfl⟩ := h
    · exact .inl (State.issue_status s _)
    · exact .inr (by rw [statusErr_endWake]; decide)
    · exact .inr (by rw [statusErr_endWake]; decide)
    · exact .inl (State.issue_status s _)
  · exact .inr (by rw [statusErr_endWake]; exact wakeVerdict_code_mem _ _)

/-! ## The statements -/

/-- Settles O20: the codes of each operation, of the end of a wake, and of a request that is not legal. -/
theorem statusCodesByOperation : Obligations.StatusCodesByOperation := by
  refine ⟨rfl, fun i s t hs h => ?_, fun s t hs hrst h hend => ?_, fun s t hs h => ?_⟩
  · obtain rfl := next_of_exec_open hs h
    obtain ⟨hcode, -⟩ := reportsOneOf_opOf i s
    exact hcode
  · rw [step_wake hrst hs] at h
    refine (wakeStep_status_code h).resolve_left fun hst => ?_
    have hbusy : t.busy = s.busy := congrArg statusBusy hst
    simp [hs, hend] at hbusy
  · rw [next_of_execBadRequest_open hs h]
    exact statusErr_finish .badRequest _

/-- Settles O21: an error is a completion whose report is not a checksum match, and it leaves `OUT` empty. -/
theorem errorKeepsOnlyChecksum : Obligations.ErrorKeepsOnlyChecksum := by
  intro i s t hs h herr
  have hempty : t.out = [] := by
    obtain rfl := next_of_exec_open hs h
    obtain ⟨-, hout⟩ := reportsOneOf_opOf i s
    exact hout herr
  obtain ⟨hcrc, -⟩ := crcHoldsLastComputation
  have hsum := hcrc i s t hs h
  have hi : i ≠ .wake := by
    rintro rfl
    rw [exec_wake_open hs h] at herr
    exact herr (statusErr_accept s.status)
  obtain ⟨b, out, hb, -, rfl⟩ := exec_completes hi hs h
  obtain rfl : out = [] := hempty
  have hmatch : b ≠ 0x50#8 := by
    rintro rfl
    exact herr (statusErr_done s _ _ _)
  exact ⟨⟨_, b, rfl⟩, done_done hb s _ _, done_busy hb s _ _,
    Bool.eq_false_iff.mpr fun hok => hmatch ((done_crcok hb s _ _).mp hok), hsum⟩

end Sys2Proof.Machine
end

section
/-! PROOFS of the statements of 70_reset_and_hazards.md. An answer enters a step through the wake sequencer alone, and
there only where it carries the number of the awaited request. CRC, CHK and DEC keep the phase of the host's transaction
or lead to `ready`, so the last action of another kind tells how a run of the host's checker came to a phase other than
`ready`. -/

namespace Sys2Proof.Machine
open Claims

/-! ## Reset and late answers -/

theorem assertReset_busy (s : State) : s.assertReset.busy = false := (by decide : statusBusy 0x00#8 = false)

/-- Settles O50: RST takes effect in its step, and an open port accepts (R33). -/
theorem rstResetsEveryElement : Obligations.RstResetsEveryElement := by
  intro s hrst
  have hopen := assertReset_busy s.takeInput
  obtain ⟨-, accepted⟩ := requestsHeldWhileBusy
  exact ⟨_, step_reset hrst, rfl, rfl, rfl, rfl, rfl, hopen, rfl, rfl,
    fun r ho hrst' hr => accepted _ r hopen hrst' ho hr⟩

/-- An answer that carries another number than the outstanding request is as good as none (R241). -/
theorem answered_eq_none {s : State} {α : Type} {a : Option (Nat × α)}
    (h : ∀ k x, a = some (k, x) → k + 1 ≠ s.busLog.length) : s.answered a = none := by
  by_contra hne
  obtain ⟨x, hx⟩ := Option.ne_none_iff_exists'.mp hne
  obtain ⟨k, ha, -, hk⟩ := answered_eq_some.mp hx
  exact h k x ha hk

theorem wakePulseStep_of_unanswered {i : Input} {s : State}
    (h : (s.issue (.transmit Config.wakePulse)).answered i.tx = none) :
    wakePulseStep i s = .next (s.issue (.transmit Config.wakePulse)) := by
  simp only [wakePulseStep, h]

theorem wakeRecvStep_of_unanswered {i : Input} {s : State}
    (h : (s.issue (.receive Config.wakeAckLen)).answered i.rx = none) :
    wakeRecvStep i s = .next (s.issue (.receive Config.wakeAckLen)) := by
  simp only [wakeRecvStep, h]

/-- The wake sequencer takes a step without the answers it does not await. -/
theorem wakeStep_dropAnswers {i : Input} {s : State}
    (htx : s.wstate = .pulse → (s.issue (.transmit Config.wakePulse)).answered i.tx = none)
    (hrx : s.wstate = .recv → (s.issue (.receive Config.wakeAckLen)).answered i.rx = none) :
    wakeStep { i with tx := none, rx := none } s = wakeStep i s := by
  cases hw : s.wstate with
  | idle => simp only [wakeStep, hw]
  | pulse => rw [wakeStep_pulse hw, wakeStep_pulse hw, wakePulseStep_none rfl, wakePulseStep_of_unanswered (htx hw)]
  | settle => rw [wakeStep_settle hw, wakeStep_settle hw]; rfl
  | recv => rw [wakeStep_recv hw, wakeStep_recv hw, wakeRecvStep_none rfl, wakeRecvStep_of_unanswered (hrx hw)]
  | cmp => rw [wakeStep_cmp hw, wakeStep_cmp hw]

/-- A step depends on the answers of its input as far as the wake sequencer does. -/
theorem step_setAnswers {s : State} {i : Input} {rest : List Input} (hins : s.inputs = i :: rest)
    (tx : Option (Nat × TxResult)) (rx : Option (Nat × RxResult))
    (hwake : s.busy = true → wakeStep { i with tx := tx, rx := rx } s.takeInput = wakeStep i s.takeInput) :
    step { s with inputs := { i with tx := tx, rx := rx } :: rest } = step s := by
  obtain ⟨s', hs'⟩ : ∃ s', s' = { s with inputs := { i with tx := tx, rx := rx } :: rest } := ⟨_, rfl⟩
  have hinput := input_of_cons hins
  have hinput' : s'.input = { i with tx := tx, rx := rx } := by rw [hs']; rfl
  have hbusy : s'.busy = s.busy := by rw [hs']; rfl
  have htake : s'.takeInput = s.takeInput := by
    simp [hs', State.takeInput, State.offered, State.input, hins]
  have hoffered : s'.offered = s.offered := congrArg State.port htake
  rw [← hs']
  cases hrst : i.rst with
  | true => rw [step_reset (by rw [hinput', hrst]), step_reset (by rw [hinput, hrst]), htake]
  | false =>
    have hr : s.input.rst = false := by rw [hinput, hrst]
    have hr' : s'.input.rst = false := by rw [hinput', hrst]
    cases hb : s.busy with
    | true => rw [step_wake hr' (hbusy.trans hb), step_wake hr hb, hinput', hinput, htake, hwake hb]
    | false =>
      cases ho : s.offered with
      | none => rw [step_idle hr' (hbusy.trans hb) (hoffered.trans ho), step_idle hr hb ho, htake]
      | some r => rw [step_serve hr' (hbusy.trans hb) (hoffered.trans ho), step_serve hr hb ho, htake]

/-- Settles O48: the sequencer awaits no other answer, and none at all after RST. -/
theorem lateAnswerIsDiscarded : Obligations.LateAnswerIsDiscarded := by
  refine ⟨fun s i j rest hins hj htx hrx => ?_, fun s t i rest tx rx hrst h hins => ?_⟩
  · rw [hj]
    refine (step_setAnswers hins none none fun hb => wakeStep_dropAnswers (fun hw => ?_) fun hw => ?_).symm
    · rw [issue_pulse_takeInput]
      exact answered_eq_none fun k a ha => htx k a ha hb hw
    · rw [issue_receive_takeInput]
      exact answered_eq_none fun k a ha => hrx k a ha hb hw
  · rw [step_reset hrst] at h
    obtain rfl := Host.Outcome.next.inj h
    exact (step_setAnswers hins tx rx fun hb => by simp [assertReset_busy] at hb).symm

/-! ## What an action of the host can do -/

/-- CRC, CHK and DEC: the requests that neither wake the chip nor build a command. -/
def OnlyComputes (i : Instr) : Prop := i ≠ .wake ∧ ∀ opc p1 p2 data, i ≠ .enc opc p1 p2 data

/-- The action is a request that only computes. -/
def HostAct.Computes (a : HostAct) : Prop := ∃ i v, a = .completed i v ∧ OnlyComputes i

/-- The action is a WAKE that ended `OK`. -/
def HostAct.WakesOk (a : HostAct) : Prop :=
  ∃ v, a = .completed .wake v ∧ statusErr v.status = 0#4 ∧ statusDone v.status = true

/-- Everything an action that breaks no obligation can do to the phase of the host's transaction. -/
inductive HostPhase.Takes (needs : AwakeCommands) : HostPhase → HostAct → HostPhase → Prop where
  | wakes {p v} (herr : statusErr v.status = 0#4) (hdone : statusDone v.status = true) :
      Takes needs p (.completed .wake v) .awake
  | wakeStillDue {v} : Takes needs .mustWake (.completed .wake v) .mustWake
  | wakeFails {p v} (hp : p ≠ .mustWake) : Takes needs p (.completed .wake v) .ready
  | encodes {p opc p1 p2 data v} (hstart : p.mayStart needs opc p1 p2 data = true) :
      Takes needs p (.completed (.enc opc p1 p2 data) v) (.framed v.out)
  | encodeFails {p opc p1 p2 data v} (hstart : p.mayStart needs opc p1 p2 data = true) :
      Takes needs p (.completed (.enc opc p1 p2 data) v) .ready
  | computes {p i v} (hi : OnlyComputes i) : Takes needs p (.completed i v) p
  | decodes {data i v} (hi : OnlyComputes i) : Takes needs (.received data) (.completed i v) .ready
  | transmits {v f} : Takes needs (.framed f) (.transmit v f .ok) .sent
  | transmitFails {v f} : Takes needs (.framed f) (.transmit v f .err) .ready
  | settles : Takes needs .sent .settle .settled
  | receives {v n bytes} : Takes needs .settled (.receive v n (.ok bytes)) (.received bytes)
  | receiveFails {v n r} : Takes needs .settled (.receive v n r) .ready
  | idles {p v} (hp : p = .ready ∨ p = .mustWake) : Takes needs p (.idleCommand v) p
  | abandons {p} (hp : p ≠ .mustWake) : Takes needs p .abandon .ready
  | breaksOff {p} : Takes needs p .abandon .mustWake
  | resets {p} : Takes needs p .resetInWake .mustWake

section
variable {needs : AwakeCommands} {p q : HostPhase}

theorem takes_of_afterWake {v : HostView} (hdone : statusDone v.status = true)
    (h : p.afterWake (statusErr v.status == 0#4) = some q) : HostPhase.Takes needs p (.completed .wake v) q := by
  cases herr : statusErr v.status == 0#4 with
  | true =>
    obtain rfl : q = .awake := by cases p <;> simp_all [HostPhase.afterWake]
    exact .wakes (by simpa using herr) hdone
  | false =>
    by_cases hp : p = .mustWake
    · subst hp
      obtain rfl : q = .mustWake := by simp_all [HostPhase.afterWake]
      exact .wakeStillDue
    · obtain rfl : q = .ready := by cases p <;> simp_all [HostPhase.afterWake]
      exact .wakeFails hp

/-- DEC of the received bytes ends the transaction, DEC of other bytes only computes. -/
theorem takes_afterDec (data : Bytes) {i : Instr} {v : HostView} (hi : OnlyComputes i) :
    HostPhase.Takes needs p (.completed i v) (p.afterDec data) := by
  unfold HostPhase.afterDec
  split
  next hp => exact hp ▸ .decodes hi
  next => exact .computes hi

theorem takes_of_afterRequest {i : Instr} {v : HostView} (h : p.afterRequest needs i v = some q) :
    HostPhase.Takes needs p (.completed i v) q := by
  simp only [HostPhase.afterRequest] at h
  split at h
  next hdone =>
    cases i with
    | wake => exact takes_of_afterWake hdone h
    | enc opc p1 p2 data =>
      obtain ⟨hstart, hq⟩ := Option.ite_none_right_eq_some.mp h
      split at hq <;> obtain rfl := Option.some.inj hq
      · exact .encodes hstart
      · exact .encodeFails hstart
    | crc | chk => obtain rfl := Option.some.inj h; exact .computes (by simp [OnlyComputes])
    | decFixed | decFixedVal | decFixedXlen | decFixedValXlen | decFull | decFullXlen =>
      obtain rfl := Option.some.inj h
      exact takes_afterDec _ (by simp [OnlyComputes])
  next => cases h

theorem takes_of_after {a : HostAct} (h : p.after needs a = some q) : HostPhase.Takes needs p a q := by
  cases a with
  | completed i v => exact takes_of_afterRequest h
  | transmit v f r =>
    obtain ⟨⟨rfl, -⟩, hq⟩ := Option.ite_none_right_eq_some.mp h
    cases r <;> obtain rfl := Option.some.inj hq
    · exact .transmits
    · exact .transmitFails
  | settle =>
    obtain ⟨rfl, hq⟩ := Option.ite_none_right_eq_some.mp h
    obtain rfl := Option.some.inj hq
    exact .settles
  | receive v n r =>
    obtain ⟨⟨rfl, -⟩, hq⟩ := Option.ite_none_right_eq_some.mp h
    cases r with
    | err => obtain rfl := Option.some.inj hq; exact .receiveFails
    | ok bytes =>
      dsimp only at hq
      split at hq <;> obtain rfl := Option.some.inj hq
      · exact .receives
      · exact .receiveFails
  | idleCommand v =>
    obtain ⟨⟨hp, -⟩, hq⟩ := Option.ite_none_right_eq_some.mp h
    obtain rfl := Option.some.inj hq
    exact .idles hp
  | abandon =>
    simp only [HostPhase.after] at h
    split at h <;> obtain rfl := Option.some.inj h
    · exact .breaksOff
    next hp => exact .abandons (by tauto)
  | resetInWake => obtain rfl := Option.some.inj h; exact .resets

/-! ## A run of the host's checker -/

theorem run_append (needs : AwakeCommands) (p : HostPhase) (xs ys : List HostAct) :
    p.run needs (xs ++ ys) = (p.run needs xs).bind fun q => q.run needs ys := by
  induction xs generalizing p with
  | nil => rfl
  | cons a xs ih => simp [HostPhase.run, ih, Option.bind_assoc]

/-- The last action of a run is taken in the phase the others lead to. -/
theorem takes_of_run_concat {xs : List HostAct} {a : HostAct} (h : p.run needs (xs ++ [a]) = some q) :
    ∃ m, p.run needs xs = some m ∧ HostPhase.Takes needs m a q := by
  rw [run_append] at h
  obtain ⟨m, hm, ha⟩ := Option.bind_eq_some_iff.mp h
  exact ⟨m, hm, takes_of_after (by simpa [HostPhase.run] using ha)⟩

/-- A run that leads from `ready` to another phase enters that phase with its last action that does more than
compute. -/
theorem exists_entry_of_run {acts : List HostAct} (hq : q ≠ .ready) (h : HostPhase.run needs .ready acts = some q) :
    ∃ before a last m, acts = before ++ [a] ++ last ∧ HostPhase.run needs .ready before = some m ∧
      HostPhase.Takes needs m a q ∧ ¬ a.Computes ∧ ∀ b ∈ last, b.Computes := by
  induction acts using List.reverseRecOn with
  | nil => exact absurd (Option.some.inj h).symm hq
  | append_singleton xs a ih =>
    obtain ⟨m, hm, ha⟩ := takes_of_run_concat h
    by_cases hc : a.Computes
    · obtain ⟨i, v, rfl, hi⟩ := id hc
      have hmq : m = q := by
        cases ha with
        | computes => rfl
        | wakes | wakeStillDue | wakeFails => exact absurd rfl hi.1
        | encodes | encodeFails => exact absurd rfl (hi.2 _ _ _ _)
        | decodes => exact absurd rfl hq
      obtain ⟨before, e, last, m', rfl, hbefore, he, hne, hlast⟩ := ih (hmq ▸ hm)
      refine ⟨before, e, last ++ [.completed i v], m', by simp, hbefore, he, hne, fun b hb => ?_⟩
      obtain hb | hb := List.mem_append.mp hb
      · exact hlast b hb
      · exact List.mem_singleton.mp hb ▸ hc
    · exact ⟨xs, a, [], m, by simp, hm, ha, hc, by simp⟩

theorem wakesOk_of_takes_awake {a : HostAct} (h : HostPhase.Takes needs p a .awake) (hc : ¬ a.Computes) :
    a.WakesOk := by
  cases h with
  | wakes herr hdone => exact ⟨_, rfl, herr, hdone⟩
  | computes hi => exact absurd ⟨_, _, rfl, hi⟩ hc
  | idles hp => simp at hp

theorem transmit_of_takes_sent {a : HostAct} (h : HostPhase.Takes needs p a .sent) (hc : ¬ a.Computes) :
    ∃ v f, a = .transmit v f .ok := by
  cases h with
  | transmits => exact ⟨_, _, rfl⟩
  | computes hi => exact absurd ⟨_, _, rfl, hi⟩ hc
  | idles hp => simp at hp

theorem settle_of_takes_settled {a : HostAct} (h : HostPhase.Takes needs p a .settled) (hc : ¬ a.Computes) :
    p = .sent ∧ a = .settle := by
  cases h with
  | settles => exact ⟨rfl, rfl⟩
  | computes hi => exact absurd ⟨_, _, rfl, hi⟩ hc
  | idles hp => simp at hp

/-- Where a WAKE is due, nothing but a WAKE that ends `OK` changes the phase. -/
theorem wakesOk_of_takes_mustWake {a : HostAct} (h : HostPhase.Takes needs .mustWake a q) :
    q = .mustWake ∨ a.WakesOk := by
  cases h with
  | wakes herr hdone => exact .inr ⟨_, rfl, herr, hdone⟩
  | wakeFails hp | abandons hp => exact absurd rfl hp
  | encodes hstart | encodeFails hstart => simp [HostPhase.mayStart] at hstart
  | wakeStillDue | computes | idles | breaksOff | resets => exact .inl rfl

theorem wakesOk_of_run_mustWake {acts : List HostAct} (h : HostPhase.run needs .mustWake acts = some q) :
    q = .mustWake ∨ ∃ a ∈ acts, a.WakesOk := by
  induction acts with
  | nil => exact .inl (Option.some.inj h).symm
  | cons a acts ih =>
    obtain ⟨m, ha, hrest⟩ := Option.bind_eq_some_iff.mp h
    obtain rfl | hok := wakesOk_of_takes_mustWake (takes_of_after ha)
    · exact (ih hrest).imp_right fun ⟨b, hb, hok⟩ => ⟨b, List.mem_cons_of_mem a hb, hok⟩
    · exact .inr ⟨a, List.mem_cons_self, hok⟩

theorem awake_of_mayStart {opc p1 : Byte} {p2 : U16} {data : Bytes} (h : p.mayStart needs opc p1 p2 data = true)
    (hneeds : needs opc p1 p2 data = true) : p = .awake := by
  cases p <;> simp_all [HostPhase.mayStart]

/-- A command that needs an awake chip is built in `awake` only (R243). -/
theorem awake_of_takes_enc {opc p1 : Byte} {p2 : U16} {data : Bytes} {v : HostView}
    (h : HostPhase.Takes needs p (.completed (.enc opc p1 p2 data) v) q) (hneeds : needs opc p1 p2 data = true) :
    p = .awake := by
  cases h with
  | encodes hstart | encodeFails hstart => exact awake_of_mayStart hstart hneeds
  | computes hi | decodes hi => exact absurd rfl (hi.2 _ _ _ _)

theorem settled_of_takes_receive {v : HostView} {n : Nat} {r : RxResult}
    (h : HostPhase.Takes needs p (.receive v n r) q) : p = .settled := by cases h <;> rfl

theorem framed_of_takes_transmit {v : HostView} {f : Bytes} {r : TxResult}
    (h : HostPhase.Takes needs p (.transmit v f r) q) : p = .framed f := by cases h <;> rfl

end

/-! ## The statements about the host -/

/-- Settles O54: a receive is taken in `settled`, which is entered from `sent`, which a transmit enters. -/
theorem hostReceivesAfterSettle : Obligations.HostReceivesAfterSettle := by
  intro needs acts v n r p h
  obtain ⟨m, hm, hr⟩ := takes_of_run_concat h
  obtain rfl := settled_of_takes_receive hr
  obtain ⟨upToSettle, a, last, m, rfl, hsent, ha, hc, hlast⟩ := exists_entry_of_run (by decide) hm
  obtain ⟨rfl, rfl⟩ := settle_of_takes_settled ha hc
  obtain ⟨before, b, mid, m', rfl, -, hb, hc', hmid⟩ := exists_entry_of_run (by decide) hsent
  obtain ⟨v', f, rfl⟩ := transmit_of_takes_sent hb hc'
  refine ⟨before, mid, last, v', f, rfl, fun a ha w g y k z => ?_⟩
  obtain ⟨i, u, rfl, -⟩ := (List.mem_append.mp ha).elim (hmid a) (hlast a)
  simp

/-- Settles O55: a command that needs an awake chip is built in `awake`, which a WAKE enters. -/
theorem hostWakesBeforeAwakeCommand : Obligations.HostWakesBeforeAwakeCommand := by
  intro needs acts v p opc p1 p2 data h hneeds
  obtain ⟨m, hm, henc⟩ := takes_of_run_concat h
  obtain rfl := awake_of_takes_enc henc hneeds
  obtain ⟨before, a, mid, m, rfl, -, ha, hc, hmid⟩ := exists_entry_of_run (by decide) hm
  obtain ⟨w, rfl, herr, hdone⟩ := wakesOk_of_takes_awake ha hc
  exact ⟨before, mid, w, rfl, herr, hdone, hmid⟩

/-- Settles O56: a transmit is taken in `framed`, so the phase has left `mustWake`. -/
theorem hostWakesBeforeNextCommand : Obligations.HostWakesBeforeNextCommand := by
  intro needs acts v f y p h
  obtain ⟨m, hm, htx⟩ := takes_of_run_concat h
  obtain rfl := framed_of_takes_transmit htx
  obtain ⟨a, ha, w, rfl, herr, hdone⟩ := (wakesOk_of_run_mustWake hm).resolve_left (by simp)
  exact ⟨w, ha, herr, hdone⟩

end Sys2Proof.Machine
end
